-- ==== Sys2Proof/Word.lean ====
section
/-! DEFINITION. The two word types of the hardware (R9, R20): bytes and 16-bit addresses, unsigned, wrapping. -/

namespace Sys2Proof

/-- An 8-bit value: a register A, X, Y, S or P, a bus cell, an opcode byte (R8 `XLEN`). -/
abbrev Byte := BitVec 8

/-- A 16-bit value: PC, an address, an operand word (R8 `ALEN`). -/
abbrev Word := BitVec 16

end Sys2Proof
end

