-- ==== Sys2Proof/Syntax.lean ====
section
/-! DEFINITION. The instructions as syntax: the 56 mnemonics, the 13 addressing modes (R102), operands, and Instr with
one constructor per row of spec/opcode_table.json (R105, R109). -/

namespace Sys2Proof

/-- The 56 mnemonics of R109. -/
inductive Mnemonic where
  | lda | ldx | ldy | sta | stx | sty | tax | tay
  | txa | tya | tsx | txs | pha | php | pla | plp
  | adc | sbc | cmp | cpx | cpy | inc | inx | iny
  | dec | dex | dey | and | ora | eor | bit | asl
  | lsr | rol | ror | jmp | jsr | rts | bcc | bcs
  | beq | bne | bmi | bpl | bvc | bvs | clc | sec
  | cli | sei | cld | sed | clv | nop | brk | rti
deriving DecidableEq, Repr

/-- The 13 addressing modes of R102, under the spec's identifiers. -/
inductive Mode where
  | implied
  | accumulator
  | immediate
  | zeroPage
  | zeroPageX
  | zeroPageY
  | absolute
  | absoluteX
  | absoluteY
  | indirect
  | indexedIndirectX
  | indirectIndexedY
  | relative
deriving DecidableEq, Repr

/-- `operandLength(mode)` of R102 and R104. -/
def Mode.operandLength : Mode → Nat
  | .implied => 0
  | .accumulator => 0
  | .immediate => 1
  | .zeroPage => 1
  | .zeroPageX => 1
  | .zeroPageY => 1
  | .absolute => 2
  | .absoluteX => 2
  | .absoluteY => 2
  | .indirect => 2
  | .indexedIndirectX => 1
  | .indirectIndexedY => 1
  | .relative => 1

/-- An addressing mode with the operand bytes assembled as R103 says: a byte for the one-byte modes, the little-endian
word for the two-byte modes. -/
inductive Operand where
  | implied
  | accumulator
  | immediate (b : Byte)
  | zeroPage (b : Byte)
  | zeroPageX (b : Byte)
  | zeroPageY (b : Byte)
  | absolute (w : Word)
  | absoluteX (w : Word)
  | absoluteY (w : Word)
  | indirect (w : Word)
  | indexedIndirectX (b : Byte)
  | indirectIndexedY (b : Byte)
  | relative (b : Byte)
deriving DecidableEq, Repr

/-- The mode of an operand. -/
def Operand.mode : Operand → Mode
  | .implied => .implied
  | .accumulator => .accumulator
  | .immediate _ => .immediate
  | .zeroPage _ => .zeroPage
  | .zeroPageX _ => .zeroPageX
  | .zeroPageY _ => .zeroPageY
  | .absolute _ => .absolute
  | .absoluteX _ => .absoluteX
  | .absoluteY _ => .absoluteY
  | .indirect _ => .indirect
  | .indexedIndirectX _ => .indexedIndirectX
  | .indirectIndexedY _ => .indirectIndexedY
  | .relative _ => .relative

/-- `len = 1 + operandLength(mode)` (R100, R107). -/
def Operand.length (o : Operand) : Nat := 1 + o.mode.operandLength

/-- The instructions: one constructor per row of spec/opcode_table.json, its operand the byte or word that follows the
opcode byte (R101). -/
inductive Instr where
  | ldaImm (b : Byte)
  | ldaZp (b : Byte)
  | ldaZpX (b : Byte)
  | ldaAbs (w : Word)
  | ldaAbsX (w : Word)
  | ldaAbsY (w : Word)
  | ldaIndX (b : Byte)
  | ldaIndY (b : Byte)
  | ldxImm (b : Byte)
  | ldxZp (b : Byte)
  | ldxZpY (b : Byte)
  | ldxAbs (w : Word)
  | ldxAbsY (w : Word)
  | ldyImm (b : Byte)
  | ldyZp (b : Byte)
  | ldyZpX (b : Byte)
  | ldyAbs (w : Word)
  | ldyAbsX (w : Word)
  | staZp (b : Byte)
  | staZpX (b : Byte)
  | staAbs (w : Word)
  | staAbsX (w : Word)
  | staAbsY (w : Word)
  | staIndX (b : Byte)
  | staIndY (b : Byte)
  | stxZp (b : Byte)
  | stxZpY (b : Byte)
  | stxAbs (w : Word)
  | styZp (b : Byte)
  | styZpX (b : Byte)
  | styAbs (w : Word)
  | tax
  | tay
  | txa
  | tya
  | tsx
  | txs
  | pha
  | php
  | pla
  | plp
  | adcImm (b : Byte)
  | adcZp (b : Byte)
  | adcZpX (b : Byte)
  | adcAbs (w : Word)
  | adcAbsX (w : Word)
  | adcAbsY (w : Word)
  | adcIndX (b : Byte)
  | adcIndY (b : Byte)
  | sbcImm (b : Byte)
  | sbcZp (b : Byte)
  | sbcZpX (b : Byte)
  | sbcAbs (w : Word)
  | sbcAbsX (w : Word)
  | sbcAbsY (w : Word)
  | sbcIndX (b : Byte)
  | sbcIndY (b : Byte)
  | cmpImm (b : Byte)
  | cmpZp (b : Byte)
  | cmpZpX (b : Byte)
  | cmpAbs (w : Word)
  | cmpAbsX (w : Word)
  | cmpAbsY (w : Word)
  | cmpIndX (b : Byte)
  | cmpIndY (b : Byte)
  | cpxImm (b : Byte)
  | cpxZp (b : Byte)
  | cpxAbs (w : Word)
  | cpyImm (b : Byte)
  | cpyZp (b : Byte)
  | cpyAbs (w : Word)
  | incZp (b : Byte)
  | incZpX (b : Byte)
  | incAbs (w : Word)
  | incAbsX (w : Word)
  | inx
  | iny
  | decZp (b : Byte)
  | decZpX (b : Byte)
  | decAbs (w : Word)
  | decAbsX (w : Word)
  | dex
  | dey
  | andImm (b : Byte)
  | andZp (b : Byte)
  | andZpX (b : Byte)
  | andAbs (w : Word)
  | andAbsX (w : Word)
  | andAbsY (w : Word)
  | andIndX (b : Byte)
  | andIndY (b : Byte)
  | oraImm (b : Byte)
  | oraZp (b : Byte)
  | oraZpX (b : Byte)
  | oraAbs (w : Word)
  | oraAbsX (w : Word)
  | oraAbsY (w : Word)
  | oraIndX (b : Byte)
  | oraIndY (b : Byte)
  | eorImm (b : Byte)
  | eorZp (b : Byte)
  | eorZpX (b : Byte)
  | eorAbs (w : Word)
  | eorAbsX (w : Word)
  | eorAbsY (w : Word)
  | eorIndX (b : Byte)
  | eorIndY (b : Byte)
  | bitZp (b : Byte)
  | bitAbs (w : Word)
  | aslAcc
  | aslZp (b : Byte)
  | aslZpX (b : Byte)
  | aslAbs (w : Word)
  | aslAbsX (w : Word)
  | lsrAcc
  | lsrZp (b : Byte)
  | lsrZpX (b : Byte)
  | lsrAbs (w : Word)
  | lsrAbsX (w : Word)
  | rolAcc
  | rolZp (b : Byte)
  | rolZpX (b : Byte)
  | rolAbs (w : Word)
  | rolAbsX (w : Word)
  | rorAcc
  | rorZp (b : Byte)
  | rorZpX (b : Byte)
  | rorAbs (w : Word)
  | rorAbsX (w : Word)
  | jmpAbs (w : Word)
  | jmpInd (w : Word)
  | jsr (w : Word)
  | rts
  | bcc (b : Byte)
  | bcs (b : Byte)
  | beq (b : Byte)
  | bne (b : Byte)
  | bmi (b : Byte)
  | bpl (b : Byte)
  | bvc (b : Byte)
  | bvs (b : Byte)
  | clc
  | sec
  | cli
  | sei
  | cld
  | sed
  | clv
  | nop
  | brk
  | rti
deriving DecidableEq, Repr

/-- The (mnemonic, operand) pair an instruction stands for: the row's first two columns (R104, R109). -/
def Instr.parts : Instr → Mnemonic × Operand
  | .ldaImm b => (.lda, .immediate b)
  | .ldaZp b => (.lda, .zeroPage b)
  | .ldaZpX b => (.lda, .zeroPageX b)
  | .ldaAbs w => (.lda, .absolute w)
  | .ldaAbsX w => (.lda, .absoluteX w)
  | .ldaAbsY w => (.lda, .absoluteY w)
  | .ldaIndX b => (.lda, .indexedIndirectX b)
  | .ldaIndY b => (.lda, .indirectIndexedY b)
  | .ldxImm b => (.ldx, .immediate b)
  | .ldxZp b => (.ldx, .zeroPage b)
  | .ldxZpY b => (.ldx, .zeroPageY b)
  | .ldxAbs w => (.ldx, .absolute w)
  | .ldxAbsY w => (.ldx, .absoluteY w)
  | .ldyImm b => (.ldy, .immediate b)
  | .ldyZp b => (.ldy, .zeroPage b)
  | .ldyZpX b => (.ldy, .zeroPageX b)
  | .ldyAbs w => (.ldy, .absolute w)
  | .ldyAbsX w => (.ldy, .absoluteX w)
  | .staZp b => (.sta, .zeroPage b)
  | .staZpX b => (.sta, .zeroPageX b)
  | .staAbs w => (.sta, .absolute w)
  | .staAbsX w => (.sta, .absoluteX w)
  | .staAbsY w => (.sta, .absoluteY w)
  | .staIndX b => (.sta, .indexedIndirectX b)
  | .staIndY b => (.sta, .indirectIndexedY b)
  | .stxZp b => (.stx, .zeroPage b)
  | .stxZpY b => (.stx, .zeroPageY b)
  | .stxAbs w => (.stx, .absolute w)
  | .styZp b => (.sty, .zeroPage b)
  | .styZpX b => (.sty, .zeroPageX b)
  | .styAbs w => (.sty, .absolute w)
  | .tax => (.tax, .implied)
  | .tay => (.tay, .implied)
  | .txa => (.txa, .implied)
  | .tya => (.tya, .implied)
  | .tsx => (.tsx, .implied)
  | .txs => (.txs, .implied)
  | .pha => (.pha, .implied)
  | .php => (.php, .implied)
  | .pla => (.pla, .implied)
  | .plp => (.plp, .implied)
  | .adcImm b => (.adc, .immediate b)
  | .adcZp b => (.adc, .zeroPage b)
  | .adcZpX b => (.adc, .zeroPageX b)
  | .adcAbs w => (.adc, .absolute w)
  | .adcAbsX w => (.adc, .absoluteX w)
  | .adcAbsY w => (.adc, .absoluteY w)
  | .adcIndX b => (.adc, .indexedIndirectX b)
  | .adcIndY b => (.adc, .indirectIndexedY b)
  | .sbcImm b => (.sbc, .immediate b)
  | .sbcZp b => (.sbc, .zeroPage b)
  | .sbcZpX b => (.sbc, .zeroPageX b)
  | .sbcAbs w => (.sbc, .absolute w)
  | .sbcAbsX w => (.sbc, .absoluteX w)
  | .sbcAbsY w => (.sbc, .absoluteY w)
  | .sbcIndX b => (.sbc, .indexedIndirectX b)
  | .sbcIndY b => (.sbc, .indirectIndexedY b)
  | .cmpImm b => (.cmp, .immediate b)
  | .cmpZp b => (.cmp, .zeroPage b)
  | .cmpZpX b => (.cmp, .zeroPageX b)
  | .cmpAbs w => (.cmp, .absolute w)
  | .cmpAbsX w => (.cmp, .absoluteX w)
  | .cmpAbsY w => (.cmp, .absoluteY w)
  | .cmpIndX b => (.cmp, .indexedIndirectX b)
  | .cmpIndY b => (.cmp, .indirectIndexedY b)
  | .cpxImm b => (.cpx, .immediate b)
  | .cpxZp b => (.cpx, .zeroPage b)
  | .cpxAbs w => (.cpx, .absolute w)
  | .cpyImm b => (.cpy, .immediate b)
  | .cpyZp b => (.cpy, .zeroPage b)
  | .cpyAbs w => (.cpy, .absolute w)
  | .incZp b => (.inc, .zeroPage b)
  | .incZpX b => (.inc, .zeroPageX b)
  | .incAbs w => (.inc, .absolute w)
  | .incAbsX w => (.inc, .absoluteX w)
  | .inx => (.inx, .implied)
  | .iny => (.iny, .implied)
  | .decZp b => (.dec, .zeroPage b)
  | .decZpX b => (.dec, .zeroPageX b)
  | .decAbs w => (.dec, .absolute w)
  | .decAbsX w => (.dec, .absoluteX w)
  | .dex => (.dex, .implied)
  | .dey => (.dey, .implied)
  | .andImm b => (.and, .immediate b)
  | .andZp b => (.and, .zeroPage b)
  | .andZpX b => (.and, .zeroPageX b)
  | .andAbs w => (.and, .absolute w)
  | .andAbsX w => (.and, .absoluteX w)
  | .andAbsY w => (.and, .absoluteY w)
  | .andIndX b => (.and, .indexedIndirectX b)
  | .andIndY b => (.and, .indirectIndexedY b)
  | .oraImm b => (.ora, .immediate b)
  | .oraZp b => (.ora, .zeroPage b)
  | .oraZpX b => (.ora, .zeroPageX b)
  | .oraAbs w => (.ora, .absolute w)
  | .oraAbsX w => (.ora, .absoluteX w)
  | .oraAbsY w => (.ora, .absoluteY w)
  | .oraIndX b => (.ora, .indexedIndirectX b)
  | .oraIndY b => (.ora, .indirectIndexedY b)
  | .eorImm b => (.eor, .immediate b)
  | .eorZp b => (.eor, .zeroPage b)
  | .eorZpX b => (.eor, .zeroPageX b)
  | .eorAbs w => (.eor, .absolute w)
  | .eorAbsX w => (.eor, .absoluteX w)
  | .eorAbsY w => (.eor, .absoluteY w)
  | .eorIndX b => (.eor, .indexedIndirectX b)
  | .eorIndY b => (.eor, .indirectIndexedY b)
  | .bitZp b => (.bit, .zeroPage b)
  | .bitAbs w => (.bit, .absolute w)
  | .aslAcc => (.asl, .accumulator)
  | .aslZp b => (.asl, .zeroPage b)
  | .aslZpX b => (.asl, .zeroPageX b)
  | .aslAbs w => (.asl, .absolute w)
  | .aslAbsX w => (.asl, .absoluteX w)
  | .lsrAcc => (.lsr, .accumulator)
  | .lsrZp b => (.lsr, .zeroPage b)
  | .lsrZpX b => (.lsr, .zeroPageX b)
  | .lsrAbs w => (.lsr, .absolute w)
  | .lsrAbsX w => (.lsr, .absoluteX w)
  | .rolAcc => (.rol, .accumulator)
  | .rolZp b => (.rol, .zeroPage b)
  | .rolZpX b => (.rol, .zeroPageX b)
  | .rolAbs w => (.rol, .absolute w)
  | .rolAbsX w => (.rol, .absoluteX w)
  | .rorAcc => (.ror, .accumulator)
  | .rorZp b => (.ror, .zeroPage b)
  | .rorZpX b => (.ror, .zeroPageX b)
  | .rorAbs w => (.ror, .absolute w)
  | .rorAbsX w => (.ror, .absoluteX w)
  | .jmpAbs w => (.jmp, .absolute w)
  | .jmpInd w => (.jmp, .indirect w)
  | .jsr w => (.jsr, .absolute w)
  | .rts => (.rts, .implied)
  | .bcc b => (.bcc, .relative b)
  | .bcs b => (.bcs, .relative b)
  | .beq b => (.beq, .relative b)
  | .bne b => (.bne, .relative b)
  | .bmi b => (.bmi, .relative b)
  | .bpl b => (.bpl, .relative b)
  | .bvc b => (.bvc, .relative b)
  | .bvs b => (.bvs, .relative b)
  | .clc => (.clc, .implied)
  | .sec => (.sec, .implied)
  | .cli => (.cli, .implied)
  | .sei => (.sei, .implied)
  | .cld => (.cld, .implied)
  | .sed => (.sed, .implied)
  | .clv => (.clv, .implied)
  | .nop => (.nop, .implied)
  | .brk => (.brk, .implied)
  | .rti => (.rti, .implied)

/-- The mnemonic of an instruction (R104). -/
def Instr.mnemonic (i : Instr) : Mnemonic := i.parts.1

/-- The operand of an instruction (R103, R104). -/
def Instr.operand (i : Instr) : Operand := i.parts.2

/-- The length in bytes of an instruction (R100). -/
def Instr.length (i : Instr) : Nat := i.operand.length

end Sys2Proof
end

