-- ==== Sys2Proof/Decode.lean ====
section
/-! DEFINITION. The decoder (R103 to R112), total on any bytes and rejecting by name, written from the opcode rows of
R105; after it the encoder, written from the same encoding column. -/

namespace Sys2Proof

/-- The word `hi : lo` of two bytes (R9, R61). -/
def word (hi lo : Byte) : Word := hi ++ lo

/-- Bits 15:8 of a word. -/
def hi8 (w : Word) : Byte := w.extractLsb' 8 8

/-- Bits 7:0 of a word. -/
def lo8 (w : Word) : Byte := w.extractLsb' 0 8

/-- How a row makes its instruction from the bytes after the opcode byte: the formats F0, F1 and F2 of R101. -/
inductive Format where
  | f0 (i : Instr)
  | f1 (make : Byte → Instr)
  | f2 (make : Word → Instr)

/-- One row of the decoder table (R105): the opcode byte, and the instruction of its (mnemonic, mode) pair. -/
structure Row where
  opcode : Byte
  mnemonic : Mnemonic
  mode : Mode
  format : Format

/-- The rows with opcode bytes 0x00 to 0x3F (R105, R108). -/
def rows0 : List Row := [
  ⟨0x00#8, .brk, .implied, .f0 .brk⟩,
  ⟨0x01#8, .ora, .indexedIndirectX, .f1 .oraIndX⟩,
  ⟨0x05#8, .ora, .zeroPage, .f1 .oraZp⟩,
  ⟨0x06#8, .asl, .zeroPage, .f1 .aslZp⟩,
  ⟨0x08#8, .php, .implied, .f0 .php⟩,
  ⟨0x09#8, .ora, .immediate, .f1 .oraImm⟩,
  ⟨0x0A#8, .asl, .accumulator, .f0 .aslAcc⟩,
  ⟨0x0D#8, .ora, .absolute, .f2 .oraAbs⟩,
  ⟨0x0E#8, .asl, .absolute, .f2 .aslAbs⟩,
  ⟨0x10#8, .bpl, .relative, .f1 .bpl⟩,
  ⟨0x11#8, .ora, .indirectIndexedY, .f1 .oraIndY⟩,
  ⟨0x15#8, .ora, .zeroPageX, .f1 .oraZpX⟩,
  ⟨0x16#8, .asl, .zeroPageX, .f1 .aslZpX⟩,
  ⟨0x18#8, .clc, .implied, .f0 .clc⟩,
  ⟨0x19#8, .ora, .absoluteY, .f2 .oraAbsY⟩,
  ⟨0x1D#8, .ora, .absoluteX, .f2 .oraAbsX⟩,
  ⟨0x1E#8, .asl, .absoluteX, .f2 .aslAbsX⟩,
  ⟨0x20#8, .jsr, .absolute, .f2 .jsr⟩,
  ⟨0x21#8, .and, .indexedIndirectX, .f1 .andIndX⟩,
  ⟨0x24#8, .bit, .zeroPage, .f1 .bitZp⟩,
  ⟨0x25#8, .and, .zeroPage, .f1 .andZp⟩,
  ⟨0x26#8, .rol, .zeroPage, .f1 .rolZp⟩,
  ⟨0x28#8, .plp, .implied, .f0 .plp⟩,
  ⟨0x29#8, .and, .immediate, .f1 .andImm⟩,
  ⟨0x2A#8, .rol, .accumulator, .f0 .rolAcc⟩,
  ⟨0x2C#8, .bit, .absolute, .f2 .bitAbs⟩,
  ⟨0x2D#8, .and, .absolute, .f2 .andAbs⟩,
  ⟨0x2E#8, .rol, .absolute, .f2 .rolAbs⟩,
  ⟨0x30#8, .bmi, .relative, .f1 .bmi⟩,
  ⟨0x31#8, .and, .indirectIndexedY, .f1 .andIndY⟩,
  ⟨0x35#8, .and, .zeroPageX, .f1 .andZpX⟩,
  ⟨0x36#8, .rol, .zeroPageX, .f1 .rolZpX⟩,
  ⟨0x38#8, .sec, .implied, .f0 .sec⟩,
  ⟨0x39#8, .and, .absoluteY, .f2 .andAbsY⟩,
  ⟨0x3D#8, .and, .absoluteX, .f2 .andAbsX⟩,
  ⟨0x3E#8, .rol, .absoluteX, .f2 .rolAbsX⟩]

/-- The rows with opcode bytes 0x40 to 0x7F (R105, R108). -/
def rows4 : List Row := [
  ⟨0x40#8, .rti, .implied, .f0 .rti⟩,
  ⟨0x41#8, .eor, .indexedIndirectX, .f1 .eorIndX⟩,
  ⟨0x45#8, .eor, .zeroPage, .f1 .eorZp⟩,
  ⟨0x46#8, .lsr, .zeroPage, .f1 .lsrZp⟩,
  ⟨0x48#8, .pha, .implied, .f0 .pha⟩,
  ⟨0x49#8, .eor, .immediate, .f1 .eorImm⟩,
  ⟨0x4A#8, .lsr, .accumulator, .f0 .lsrAcc⟩,
  ⟨0x4C#8, .jmp, .absolute, .f2 .jmpAbs⟩,
  ⟨0x4D#8, .eor, .absolute, .f2 .eorAbs⟩,
  ⟨0x4E#8, .lsr, .absolute, .f2 .lsrAbs⟩,
  ⟨0x50#8, .bvc, .relative, .f1 .bvc⟩,
  ⟨0x51#8, .eor, .indirectIndexedY, .f1 .eorIndY⟩,
  ⟨0x55#8, .eor, .zeroPageX, .f1 .eorZpX⟩,
  ⟨0x56#8, .lsr, .zeroPageX, .f1 .lsrZpX⟩,
  ⟨0x58#8, .cli, .implied, .f0 .cli⟩,
  ⟨0x59#8, .eor, .absoluteY, .f2 .eorAbsY⟩,
  ⟨0x5D#8, .eor, .absoluteX, .f2 .eorAbsX⟩,
  ⟨0x5E#8, .lsr, .absoluteX, .f2 .lsrAbsX⟩,
  ⟨0x60#8, .rts, .implied, .f0 .rts⟩,
  ⟨0x61#8, .adc, .indexedIndirectX, .f1 .adcIndX⟩,
  ⟨0x65#8, .adc, .zeroPage, .f1 .adcZp⟩,
  ⟨0x66#8, .ror, .zeroPage, .f1 .rorZp⟩,
  ⟨0x68#8, .pla, .implied, .f0 .pla⟩,
  ⟨0x69#8, .adc, .immediate, .f1 .adcImm⟩,
  ⟨0x6A#8, .ror, .accumulator, .f0 .rorAcc⟩,
  ⟨0x6C#8, .jmp, .indirect, .f2 .jmpInd⟩,
  ⟨0x6D#8, .adc, .absolute, .f2 .adcAbs⟩,
  ⟨0x6E#8, .ror, .absolute, .f2 .rorAbs⟩,
  ⟨0x70#8, .bvs, .relative, .f1 .bvs⟩,
  ⟨0x71#8, .adc, .indirectIndexedY, .f1 .adcIndY⟩,
  ⟨0x75#8, .adc, .zeroPageX, .f1 .adcZpX⟩,
  ⟨0x76#8, .ror, .zeroPageX, .f1 .rorZpX⟩,
  ⟨0x78#8, .sei, .implied, .f0 .sei⟩,
  ⟨0x79#8, .adc, .absoluteY, .f2 .adcAbsY⟩,
  ⟨0x7D#8, .adc, .absoluteX, .f2 .adcAbsX⟩,
  ⟨0x7E#8, .ror, .absoluteX, .f2 .rorAbsX⟩]

/-- The rows with opcode bytes 0x80 to 0xBF (R105, R108). -/
def rows8 : List Row := [
  ⟨0x81#8, .sta, .indexedIndirectX, .f1 .staIndX⟩,
  ⟨0x84#8, .sty, .zeroPage, .f1 .styZp⟩,
  ⟨0x85#8, .sta, .zeroPage, .f1 .staZp⟩,
  ⟨0x86#8, .stx, .zeroPage, .f1 .stxZp⟩,
  ⟨0x88#8, .dey, .implied, .f0 .dey⟩,
  ⟨0x8A#8, .txa, .implied, .f0 .txa⟩,
  ⟨0x8C#8, .sty, .absolute, .f2 .styAbs⟩,
  ⟨0x8D#8, .sta, .absolute, .f2 .staAbs⟩,
  ⟨0x8E#8, .stx, .absolute, .f2 .stxAbs⟩,
  ⟨0x90#8, .bcc, .relative, .f1 .bcc⟩,
  ⟨0x91#8, .sta, .indirectIndexedY, .f1 .staIndY⟩,
  ⟨0x94#8, .sty, .zeroPageX, .f1 .styZpX⟩,
  ⟨0x95#8, .sta, .zeroPageX, .f1 .staZpX⟩,
  ⟨0x96#8, .stx, .zeroPageY, .f1 .stxZpY⟩,
  ⟨0x98#8, .tya, .implied, .f0 .tya⟩,
  ⟨0x99#8, .sta, .absoluteY, .f2 .staAbsY⟩,
  ⟨0x9A#8, .txs, .implied, .f0 .txs⟩,
  ⟨0x9D#8, .sta, .absoluteX, .f2 .staAbsX⟩,
  ⟨0xA0#8, .ldy, .immediate, .f1 .ldyImm⟩,
  ⟨0xA1#8, .lda, .indexedIndirectX, .f1 .ldaIndX⟩,
  ⟨0xA2#8, .ldx, .immediate, .f1 .ldxImm⟩,
  ⟨0xA4#8, .ldy, .zeroPage, .f1 .ldyZp⟩,
  ⟨0xA5#8, .lda, .zeroPage, .f1 .ldaZp⟩,
  ⟨0xA6#8, .ldx, .zeroPage, .f1 .ldxZp⟩,
  ⟨0xA8#8, .tay, .implied, .f0 .tay⟩,
  ⟨0xA9#8, .lda, .immediate, .f1 .ldaImm⟩,
  ⟨0xAA#8, .tax, .implied, .f0 .tax⟩,
  ⟨0xAC#8, .ldy, .absolute, .f2 .ldyAbs⟩,
  ⟨0xAD#8, .lda, .absolute, .f2 .ldaAbs⟩,
  ⟨0xAE#8, .ldx, .absolute, .f2 .ldxAbs⟩,
  ⟨0xB0#8, .bcs, .relative, .f1 .bcs⟩,
  ⟨0xB1#8, .lda, .indirectIndexedY, .f1 .ldaIndY⟩,
  ⟨0xB4#8, .ldy, .zeroPageX, .f1 .ldyZpX⟩,
  ⟨0xB5#8, .lda, .zeroPageX, .f1 .ldaZpX⟩,
  ⟨0xB6#8, .ldx, .zeroPageY, .f1 .ldxZpY⟩,
  ⟨0xB8#8, .clv, .implied, .f0 .clv⟩,
  ⟨0xB9#8, .lda, .absoluteY, .f2 .ldaAbsY⟩,
  ⟨0xBA#8, .tsx, .implied, .f0 .tsx⟩,
  ⟨0xBC#8, .ldy, .absoluteX, .f2 .ldyAbsX⟩,
  ⟨0xBD#8, .lda, .absoluteX, .f2 .ldaAbsX⟩,
  ⟨0xBE#8, .ldx, .absoluteY, .f2 .ldxAbsY⟩]

/-- The rows with opcode bytes 0xC0 to 0xFF (R105, R108). -/
def rowsC : List Row := [
  ⟨0xC0#8, .cpy, .immediate, .f1 .cpyImm⟩,
  ⟨0xC1#8, .cmp, .indexedIndirectX, .f1 .cmpIndX⟩,
  ⟨0xC4#8, .cpy, .zeroPage, .f1 .cpyZp⟩,
  ⟨0xC5#8, .cmp, .zeroPage, .f1 .cmpZp⟩,
  ⟨0xC6#8, .dec, .zeroPage, .f1 .decZp⟩,
  ⟨0xC8#8, .iny, .implied, .f0 .iny⟩,
  ⟨0xC9#8, .cmp, .immediate, .f1 .cmpImm⟩,
  ⟨0xCA#8, .dex, .implied, .f0 .dex⟩,
  ⟨0xCC#8, .cpy, .absolute, .f2 .cpyAbs⟩,
  ⟨0xCD#8, .cmp, .absolute, .f2 .cmpAbs⟩,
  ⟨0xCE#8, .dec, .absolute, .f2 .decAbs⟩,
  ⟨0xD0#8, .bne, .relative, .f1 .bne⟩,
  ⟨0xD1#8, .cmp, .indirectIndexedY, .f1 .cmpIndY⟩,
  ⟨0xD5#8, .cmp, .zeroPageX, .f1 .cmpZpX⟩,
  ⟨0xD6#8, .dec, .zeroPageX, .f1 .decZpX⟩,
  ⟨0xD8#8, .cld, .implied, .f0 .cld⟩,
  ⟨0xD9#8, .cmp, .absoluteY, .f2 .cmpAbsY⟩,
  ⟨0xDD#8, .cmp, .absoluteX, .f2 .cmpAbsX⟩,
  ⟨0xDE#8, .dec, .absoluteX, .f2 .decAbsX⟩,
  ⟨0xE0#8, .cpx, .immediate, .f1 .cpxImm⟩,
  ⟨0xE1#8, .sbc, .indexedIndirectX, .f1 .sbcIndX⟩,
  ⟨0xE4#8, .cpx, .zeroPage, .f1 .cpxZp⟩,
  ⟨0xE5#8, .sbc, .zeroPage, .f1 .sbcZp⟩,
  ⟨0xE6#8, .inc, .zeroPage, .f1 .incZp⟩,
  ⟨0xE8#8, .inx, .implied, .f0 .inx⟩,
  ⟨0xE9#8, .sbc, .immediate, .f1 .sbcImm⟩,
  ⟨0xEA#8, .nop, .implied, .f0 .nop⟩,
  ⟨0xEC#8, .cpx, .absolute, .f2 .cpxAbs⟩,
  ⟨0xED#8, .sbc, .absolute, .f2 .sbcAbs⟩,
  ⟨0xEE#8, .inc, .absolute, .f2 .incAbs⟩,
  ⟨0xF0#8, .beq, .relative, .f1 .beq⟩,
  ⟨0xF1#8, .sbc, .indirectIndexedY, .f1 .sbcIndY⟩,
  ⟨0xF5#8, .sbc, .zeroPageX, .f1 .sbcZpX⟩,
  ⟨0xF6#8, .inc, .zeroPageX, .f1 .incZpX⟩,
  ⟨0xF8#8, .sed, .implied, .f0 .sed⟩,
  ⟨0xF9#8, .sbc, .absoluteY, .f2 .sbcAbsY⟩,
  ⟨0xFD#8, .sbc, .absoluteX, .f2 .sbcAbsX⟩,
  ⟨0xFE#8, .inc, .absoluteX, .f2 .incAbsX⟩]

/-- The decoder table: the 151 rows of spec/opcode_table.json in the order of their bytes (R105). -/
def decoderTable : List Row := rows0 ++ rows4 ++ rows8 ++ rowsC

/-- The row of an opcode byte, none if the byte is invalid (R105, R112). -/
def lookup (op : Byte) : Option Row := decoderTable.find? (fun r => r.opcode == op)

/-- `decode(opcodeByte) -> (mnemonic, addressingMode)`, none for an invalid byte (R104). -/
def decodeOpcode (op : Byte) : Option (Mnemonic × Mode) := (lookup op).map (fun r => (r.mnemonic, r.mode))

/-- `isValid(opcodeByte)` (R104, R105). -/
def isValid (op : Byte) : Bool := (lookup op).isSome

/-- The construction check of R402: the first opcode byte that two rows of a table claim, none if no byte is. -/
def duplicateOpcode : List Row → Option Byte
  | [] => none
  | r :: rest => if rest.any (fun q => q.opcode == r.opcode) then some r.opcode else duplicateOpcode rest

/-- Why bytes are no instruction. -/
inductive Reject where
  /-- No opcode byte. -/
  | empty
  /-- The opcode byte has no row (R112). -/
  | invalidOpcode (op : Byte)
  /-- Fewer operand bytes than the mode's operand length (R100). -/
  | truncated (op : Byte)
deriving DecidableEq, Repr

/-- The instruction a row makes of the bytes after the opcode byte, with the bytes left over (R101, R103). -/
def Row.make (r : Row) : List Byte → Except Reject (Instr × List Byte)
  | rest =>
    match r.format, rest with
    | .f0 i, rest => .ok (i, rest)
    | .f1 f, b1 :: rest => .ok (f b1, rest)
    | .f2 f, b1 :: b2 :: rest => .ok (f (word b2 b1), rest)
    | _, _ => .error (.truncated r.opcode)

/-- The first instruction of a list of bytes and the rest of the list, or the reason there is none (R104 to R107). -/
def decode : List Byte → Except Reject (Instr × List Byte)
  | [] => .error .empty
  | op :: rest =>
    match lookup op with
    | none => .error (.invalidOpcode op)
    | some r => r.make rest

/-- The bytes of an instruction, opcode byte first, words low byte first (R101, R103, R109). -/
def encode : Instr → List Byte
  | .ldaImm b => [0xA9#8, b]
  | .ldaZp b => [0xA5#8, b]
  | .ldaZpX b => [0xB5#8, b]
  | .ldaAbs w => [0xAD#8, lo8 w, hi8 w]
  | .ldaAbsX w => [0xBD#8, lo8 w, hi8 w]
  | .ldaAbsY w => [0xB9#8, lo8 w, hi8 w]
  | .ldaIndX b => [0xA1#8, b]
  | .ldaIndY b => [0xB1#8, b]
  | .ldxImm b => [0xA2#8, b]
  | .ldxZp b => [0xA6#8, b]
  | .ldxZpY b => [0xB6#8, b]
  | .ldxAbs w => [0xAE#8, lo8 w, hi8 w]
  | .ldxAbsY w => [0xBE#8, lo8 w, hi8 w]
  | .ldyImm b => [0xA0#8, b]
  | .ldyZp b => [0xA4#8, b]
  | .ldyZpX b => [0xB4#8, b]
  | .ldyAbs w => [0xAC#8, lo8 w, hi8 w]
  | .ldyAbsX w => [0xBC#8, lo8 w, hi8 w]
  | .staZp b => [0x85#8, b]
  | .staZpX b => [0x95#8, b]
  | .staAbs w => [0x8D#8, lo8 w, hi8 w]
  | .staAbsX w => [0x9D#8, lo8 w, hi8 w]
  | .staAbsY w => [0x99#8, lo8 w, hi8 w]
  | .staIndX b => [0x81#8, b]
  | .staIndY b => [0x91#8, b]
  | .stxZp b => [0x86#8, b]
  | .stxZpY b => [0x96#8, b]
  | .stxAbs w => [0x8E#8, lo8 w, hi8 w]
  | .styZp b => [0x84#8, b]
  | .styZpX b => [0x94#8, b]
  | .styAbs w => [0x8C#8, lo8 w, hi8 w]
  | .tax => [0xAA#8]
  | .tay => [0xA8#8]
  | .txa => [0x8A#8]
  | .tya => [0x98#8]
  | .tsx => [0xBA#8]
  | .txs => [0x9A#8]
  | .pha => [0x48#8]
  | .php => [0x08#8]
  | .pla => [0x68#8]
  | .plp => [0x28#8]
  | .adcImm b => [0x69#8, b]
  | .adcZp b => [0x65#8, b]
  | .adcZpX b => [0x75#8, b]
  | .adcAbs w => [0x6D#8, lo8 w, hi8 w]
  | .adcAbsX w => [0x7D#8, lo8 w, hi8 w]
  | .adcAbsY w => [0x79#8, lo8 w, hi8 w]
  | .adcIndX b => [0x61#8, b]
  | .adcIndY b => [0x71#8, b]
  | .sbcImm b => [0xE9#8, b]
  | .sbcZp b => [0xE5#8, b]
  | .sbcZpX b => [0xF5#8, b]
  | .sbcAbs w => [0xED#8, lo8 w, hi8 w]
  | .sbcAbsX w => [0xFD#8, lo8 w, hi8 w]
  | .sbcAbsY w => [0xF9#8, lo8 w, hi8 w]
  | .sbcIndX b => [0xE1#8, b]
  | .sbcIndY b => [0xF1#8, b]
  | .cmpImm b => [0xC9#8, b]
  | .cmpZp b => [0xC5#8, b]
  | .cmpZpX b => [0xD5#8, b]
  | .cmpAbs w => [0xCD#8, lo8 w, hi8 w]
  | .cmpAbsX w => [0xDD#8, lo8 w, hi8 w]
  | .cmpAbsY w => [0xD9#8, lo8 w, hi8 w]
  | .cmpIndX b => [0xC1#8, b]
  | .cmpIndY b => [0xD1#8, b]
  | .cpxImm b => [0xE0#8, b]
  | .cpxZp b => [0xE4#8, b]
  | .cpxAbs w => [0xEC#8, lo8 w, hi8 w]
  | .cpyImm b => [0xC0#8, b]
  | .cpyZp b => [0xC4#8, b]
  | .cpyAbs w => [0xCC#8, lo8 w, hi8 w]
  | .incZp b => [0xE6#8, b]
  | .incZpX b => [0xF6#8, b]
  | .incAbs w => [0xEE#8, lo8 w, hi8 w]
  | .incAbsX w => [0xFE#8, lo8 w, hi8 w]
  | .inx => [0xE8#8]
  | .iny => [0xC8#8]
  | .decZp b => [0xC6#8, b]
  | .decZpX b => [0xD6#8, b]
  | .decAbs w => [0xCE#8, lo8 w, hi8 w]
  | .decAbsX w => [0xDE#8, lo8 w, hi8 w]
  | .dex => [0xCA#8]
  | .dey => [0x88#8]
  | .andImm b => [0x29#8, b]
  | .andZp b => [0x25#8, b]
  | .andZpX b => [0x35#8, b]
  | .andAbs w => [0x2D#8, lo8 w, hi8 w]
  | .andAbsX w => [0x3D#8, lo8 w, hi8 w]
  | .andAbsY w => [0x39#8, lo8 w, hi8 w]
  | .andIndX b => [0x21#8, b]
  | .andIndY b => [0x31#8, b]
  | .oraImm b => [0x09#8, b]
  | .oraZp b => [0x05#8, b]
  | .oraZpX b => [0x15#8, b]
  | .oraAbs w => [0x0D#8, lo8 w, hi8 w]
  | .oraAbsX w => [0x1D#8, lo8 w, hi8 w]
  | .oraAbsY w => [0x19#8, lo8 w, hi8 w]
  | .oraIndX b => [0x01#8, b]
  | .oraIndY b => [0x11#8, b]
  | .eorImm b => [0x49#8, b]
  | .eorZp b => [0x45#8, b]
  | .eorZpX b => [0x55#8, b]
  | .eorAbs w => [0x4D#8, lo8 w, hi8 w]
  | .eorAbsX w => [0x5D#8, lo8 w, hi8 w]
  | .eorAbsY w => [0x59#8, lo8 w, hi8 w]
  | .eorIndX b => [0x41#8, b]
  | .eorIndY b => [0x51#8, b]
  | .bitZp b => [0x24#8, b]
  | .bitAbs w => [0x2C#8, lo8 w, hi8 w]
  | .aslAcc => [0x0A#8]
  | .aslZp b => [0x06#8, b]
  | .aslZpX b => [0x16#8, b]
  | .aslAbs w => [0x0E#8, lo8 w, hi8 w]
  | .aslAbsX w => [0x1E#8, lo8 w, hi8 w]
  | .lsrAcc => [0x4A#8]
  | .lsrZp b => [0x46#8, b]
  | .lsrZpX b => [0x56#8, b]
  | .lsrAbs w => [0x4E#8, lo8 w, hi8 w]
  | .lsrAbsX w => [0x5E#8, lo8 w, hi8 w]
  | .rolAcc => [0x2A#8]
  | .rolZp b => [0x26#8, b]
  | .rolZpX b => [0x36#8, b]
  | .rolAbs w => [0x2E#8, lo8 w, hi8 w]
  | .rolAbsX w => [0x3E#8, lo8 w, hi8 w]
  | .rorAcc => [0x6A#8]
  | .rorZp b => [0x66#8, b]
  | .rorZpX b => [0x76#8, b]
  | .rorAbs w => [0x6E#8, lo8 w, hi8 w]
  | .rorAbsX w => [0x7E#8, lo8 w, hi8 w]
  | .jmpAbs w => [0x4C#8, lo8 w, hi8 w]
  | .jmpInd w => [0x6C#8, lo8 w, hi8 w]
  | .jsr w => [0x20#8, lo8 w, hi8 w]
  | .rts => [0x60#8]
  | .bcc b => [0x90#8, b]
  | .bcs b => [0xB0#8, b]
  | .beq b => [0xF0#8, b]
  | .bne b => [0xD0#8, b]
  | .bmi b => [0x30#8, b]
  | .bpl b => [0x10#8, b]
  | .bvc b => [0x50#8, b]
  | .bvs b => [0x70#8, b]
  | .clc => [0x18#8]
  | .sec => [0x38#8]
  | .cli => [0x58#8]
  | .sei => [0x78#8]
  | .cld => [0xD8#8]
  | .sed => [0xF8#8]
  | .clv => [0xB8#8]
  | .nop => [0xEA#8]
  | .brk => [0x00#8]
  | .rti => [0x40#8]

/-- The opcode byte of an instruction (R101). -/
def Instr.opcode (i : Instr) : Byte := (encode i).headD 0

/-- The bytes of an instruction of at most three bytes numbered as spec/opcode_table.json numbers its bits: byte k is
bits 8k+7 to 8k. The bits from nbits up are 0. -/
def tableBytes (nbits w : Nat) : List Byte :=
  let v := w % 2 ^ nbits
  [BitVec.ofNat 8 v, BitVec.ofNat 8 (v / 256), BitVec.ofNat 8 (v / 65536)]

/-- The instruction the decoder reads from an instruction whose bits are w, numbered as the table numbers them. -/
def decodeTableWord (nbits w : Nat) : Option Instr :=
  match decode (tableBytes nbits w) with
  | .ok (i, _) => some i
  | .error _ => none

end Sys2Proof
end

