-- ==== Sys2Proof/Config.lean ====
section
/-! DEFINITION. The parameters of 00_scope.md R8: the fixed constants, the launch parameters a claim may quantify
over (held in State.cfg, log 9), what construction makes of them, and the free values. -/

namespace Sys2Proof

/-- What ADC and SBC do with P.D = 1 (R222, D2). -/
inductive DecimalMode where
  | refuse
  | binary
deriving DecidableEq, Repr

/-- The form of the IFR's column-scan fallback (R433, D20). -/
inductive KbdFallback where
  | column
  | draw
deriving DecidableEq, Repr

/-- The hooks a bus hook list may name. Only the VIA's are in scope (R32, R430, D27; log 12). -/
inductive Hook where
  | via
deriving DecidableEq, Repr

/-- The launch parameters of R8 (its rows of kind "param", and the interceptor registry of R34): what a claim may name or
quantify over. No step changes them. -/
structure LaunchParams where
  /-- R222. -/
  decimalMode : DecimalMode
  /-- R149. -/
  jmpIndirectPageWrap : Bool
  /-- R433. -/
  kbdFallback : KbdFallback
  /-- The vectors for which the interceptor registry holds a handler (R34, R302). -/
  interceptors : List Word
  /-- `VIA_ORB`, the output register (R43, D15). -/
  viaOrb : Word
  /-- `VIA_DDRA`, the data-direction register (R43, D15). -/
  viaDdra : Word
  /-- `VIA_IFR`, the interrupt flag register (R43, D15). -/
  viaIfr : Word
  /-- `VIA_IER`, the interrupt enable register (R43, D15). -/
  viaIer : Word
  /-- `VIA_KBD`, the keyboard data register (R43, D15). -/
  viaKbd : Word
  /-- `SRC_TIMER`, the IFR and IER bit of the general timer (R415, D16). -/
  srcTimer : Fin 7
  /-- `SRC_VSYNC`, the IFR and IER bit of vertical sync (R415, D16). -/
  srcVsync : Fin 7
  /-- `SRC_KBD`, the IFR bit of the keyboard column fallback (R433, D16). -/
  srcKbd : Fin 7
  /-- `AUTOSCAN_OFF_CODE` (R440, D17). -/
  autoscanOffCode : BitVec 4
  /-- `AUTOSCAN_ON_CODE` (R440, D17). -/
  autoscanOnCode : BitVec 4
  /-- `KEY_PRESSED_BIT` (R443, D18). -/
  keyPressedBit : Fin 8
deriving DecidableEq, Repr

/-- The defaults of R8. -/
def LaunchParams.default : LaunchParams where
  decimalMode := .refuse
  jmpIndirectPageWrap := true
  kbdFallback := .column
  interceptors := []
  viaOrb := 0xFE40#16
  viaDdra := 0xFE43#16
  viaIfr := 0xFE4D#16
  viaIer := 0xFE4E#16
  viaKbd := 0xFE4F#16
  srcTimer := 6
  srcVsync := 1
  srcKbd := 0
  autoscanOffCode := 0x3#4
  autoscanOnCode := 0xB#4
  keyPressedBit := 7

/-- What construction fixes for the whole run (R484): the launch parameters and the bus's two hook lists. -/
structure Config extends LaunchParams where
  /-- The bus's read hooks, in registration order (R32, R62). -/
  readHooks : List Hook
  /-- The bus's write hooks, in registration order (R32, R63). -/
  writeHooks : List Hook
deriving DecidableEq, Repr

/-- Construction installs the VIA's one read hook and one write hook on the bus (R430, R480 step 3), whatever the launch
parameters are. -/
def LaunchParams.installVia (params : LaunchParams) : Config where
  toLaunchParams := params
  readHooks := [.via]
  writeHooks := [.via]

/-- The machine of R8's defaults. -/
def Config.default : Config := LaunchParams.default.installVia

/-- The two periodic interrupt sources (R415, R450). -/
inductive Source where
  | timer
  | vsync
deriving DecidableEq, Repr

/-- One step of an agent other than the CPU: a timer firing (R452), a key event (R445), or the host telling the loop to
stop (R490). -/
inductive AgentStep where
  | fire (src : Source)
  | keyDown (k : BitVec 7)
  | keyUp
  | hostStop
deriving DecidableEq, Repr

/-- What one call of an interceptor handler leaves (R303): the registers other than PC, its bus writes in order, and
whether it handled the call. -/
structure HandlerEffect where
  a : Byte
  x : Byte
  y : Byte
  sp : Byte
  p : Byte
  writes : List (Word × Byte)
  handled : Bool
deriving DecidableEq, Repr, Inhabited

namespace Config

/-- `STACK_PAGE` = 0x01: the stack is 0x0100 to 0x01FF (R8, R22, D7). -/
def stackPage : Byte := 0x01#8

/-- `VEC_NMI`: listed by R8, read by nothing (R414, D11). -/
def vecNmi : Word := 0xFFFA#16

/-- `VEC_RESET` (R8, D9). -/
def vecReset : Word := 0xFFFC#16

/-- `VEC_IRQ`, shared by interrupt entry and BRK (R8, D10). -/
def vecIrq : Word := 0xFFFE#16

/-- The IFR and IER bit of a source (R415). -/
def sourceBit (c : Config) : Source → Fin 7
  | .timer => c.srcTimer
  | .vsync => c.srcVsync

/-- The addresses the VIA's read hook can claim (R430). -/
def readRegisters (c : Config) : List Word := [c.viaIfr, c.viaIer, c.viaKbd]

/-- The addresses the VIA's write hook acts on (R430). -/
def viaRegisters (c : Config) : List Word := [c.viaOrb, c.viaDdra, c.viaIfr, c.viaIer, c.viaKbd]

/-- FREE VALUE: the fallback bit of an IFR read under `kbdFallback = Draw` (R433); applied to State.draws. Log 10. -/
opaque freeBit : Nat → Bool

/-- FREE VALUE: what an interceptor handler does once State.handlerScript is used up (R303); applied to State.draws.
Log 8. -/
opaque freeHandler : Nat → HandlerEffect

/-- FREE VALUE: the agent steps at an interleaving point of a schedule that fixes none (R451, R453): any firings and key
events, any number of times; applied to the schedule's own counter. Log 4. -/
opaque freeAgents : Nat → List AgentStep

end Config

end Sys2Proof
end

