-- ==== Sys2Proof/Machine/State.lean ====
section
/-! DEFINITION. The state of the hardware as plain data (10_state.md), the reasons a step can stop (R405), and the state
right after reset (R45, R480). -/

namespace Sys2Proof.Machine

/-- Why the machine has no next state: the faults of R405, and the end of a run. -/
inductive Fault where
  /-- R400: the fetch of a CPU step read an invalid opcode byte at pc. Raised by fetch. The spec's own fault: safe. -/
  | decodeFault (pc : Word) (opcode : Byte)
  /-- R401: a meaning asked a mode for an address or byte the mode does not define. Raised by effectiveAddress and
  operandByte, reached by no instruction of the table (R153). Safe. -/
  | addressingModeFault (pc : Word) (opcode : Byte) (mode : Mode)
  /-- R402: two rows of the decoder table claim the byte. Raised by construct, before any step. Safe. -/
  | constructionFault (opcode : Byte)
  /-- R490: the host has stopped the run, so no agent has a step. Raised by step in a state whose status is Stopped;
  not a fault of the hardware. Log 6. Safe. -/
  | stopped
deriving DecidableEq, Repr

/-- Why a step is refused. -/
inductive Refusal where
  /-- An instruction whose meaning has not been written. Raised by exec's arms only; safe. -/
  | notModelled (mnemonic : String)
  /-- R222, R403: ADC or SBC at pc with P.D = 1 under decimalMode = Refuse. Raised by execAdc… and execSbc…. The spec's
  own refusal: safe. -/
  | decimalArithmetic (pc : Word) (opcode : Byte)
deriving DecidableEq, Repr

/-- The three outcomes of a step. -/
abbrev Outcome (σ : Type) := Host.Outcome σ Fault Refusal

/-- The run status of R42. -/
inductive RunStatus where
  | running
  | faulted (reason : Fault)
  | refused (reason : Refusal)
  | stopped
deriving DecidableEq, Repr

/-- Which agent steps happen at the coming interleaving points, the next point first (R451, R453; log 4). -/
inductive Schedule where
  /-- At no point does an agent have a step. -/
  | quiet
  /-- At each point the agents take free steps, Config.freeAgents n at the next one: firings without a bound. -/
  | free (n : Nat)
  /-- The agents take these steps at the next point. -/
  | slot (steps : List AgentStep) (later : Schedule)
deriving DecidableEq, Repr

/-- The bus cells that differ from what an unlisted cell reads as (log 1), by rising address. -/
abbrev Memory := List Host.Cell

/-- The state of the machine. The fields schedule, stopRequest, handlerScript and draws are the model's own (logs 4, 6,
8 and 10); every other field is the spec's. -/
structure State where
  /-- PC, the program counter (R20, R23). -/
  pc : Word
  /-- S, the stack pointer (R22). -/
  sp : Byte
  /-- A, the accumulator (R21). -/
  a : Byte
  /-- X, an index register (R21). -/
  x : Byte
  /-- Y, an index register (R21). -/
  y : Byte
  /-- P, the flag register: C, Z, I, D, B, R, V, N from bit 0 up (R24). -/
  p : Byte
  /-- The 65,536 bus cells (R31). -/
  mem : Memory
  /-- The IFR's source bits (R36). -/
  pending : BitVec 7
  /-- The CPU-side pending-interrupt flags (R35). -/
  notified : BitVec 7
  /-- The IER's source bits (R37). -/
  enable : BitVec 7
  /-- Whether keyboard auto-scan is enabled (R39). -/
  autoscan : Bool
  /-- The data-direction register (R40). -/
  ddra : Byte
  /-- The last-pressed key's number (R41). -/
  lastKey : Option (BitVec 7)
  /-- The last byte written to the keyboard data register (R41). -/
  lastProbe : Byte
  /-- The run status (R42). -/
  status : RunStatus
  /-- The launch parameters and the bus's hook lists (R8, R32): fixed for the run. -/
  cfg : Config
  /-- The agent steps at each coming interleaving point (R451, R453; log 4). -/
  schedule : Schedule
  /-- Whether the host has told the loop to stop (R490; log 6). -/
  stopRequest : Bool
  /-- What each coming interceptor handler call does, the next call first (R303; log 8). -/
  handlerScript : List HandlerEffect
  /-- The index of the next free value (log 10). -/
  draws : Nat
deriving DecidableEq, Repr

/-- The machine right after reset (R45, R480): PC is the word at 0xFFFC of a memory with nothing listed (logs 1, 3); A, X,
Y, S and the flags other than I are the values of log 2. -/
def State.reset : State where
  pc := 0x0000#16
  sp := 0x00#8
  a := 0x00#8
  x := 0x00#8
  y := 0x00#8
  p := 0x04#8
  mem := []
  pending := 0#7
  notified := 0#7
  enable := 0#7
  autoscan := true
  ddra := 0x00#8
  lastKey := none
  lastProbe := 0x00#8
  status := .running
  cfg := Config.default
  schedule := .quiet
  stopRequest := false
  handlerScript := []
  draws := 0

end Sys2Proof.Machine
end

