-- ==== Sys2Proof/Machine/Flags.lean ====
section
/-! DEFINITION. The flag register P bit by bit (R24, R25), the Zero/Negative convention (R27), and the laws of addition,
subtraction, comparison, shifting and rotating (R220, R221, R225, R264 to R267). -/

namespace Sys2Proof.Machine

/-- The eight flags of R24. -/
inductive Flag where
  | c
  | z
  | i
  | d
  | b
  | r
  | v
  | n
deriving DecidableEq, Repr

/-- The bit of P that holds a flag (R24). -/
def Flag.bit : Flag → Nat
  | .c => 0
  | .z => 1
  | .i => 2
  | .d => 3
  | .b => 4
  | .r => 5
  | .v => 6
  | .n => 7

/-- A byte with one bit alone set. -/
def Flag.mask (f : Flag) : Byte := 1#8 <<< f.bit

/-- Test a flag of a status byte (R25). -/
def Flag.test (f : Flag) (p : Byte) : Bool := p.getLsbD f.bit

/-- Set or reset a flag of a status byte (R25). -/
def Flag.put (f : Flag) (v : Bool) (p : Byte) : Byte := if v then p ||| f.mask else p &&& ~~~f.mask

/-- The value of a flag. -/
def State.flag (f : Flag) (s : State) : Bool := f.test s.p

/-- Set or reset one flag. -/
def State.setFlag (f : Flag) (v : Bool) (s : State) : State := { s with p := f.put v s.p }

/-- All eight flags from a pulled byte, each set or reset to its bit (R25, R203, R349). -/
def State.setFlags (v : Byte) (s : State) : State := { s with p := v }

/-- `setZN(v)` (R27). -/
def State.setZN (v : Byte) (s : State) : State := (s.setFlag .z (v == 0)).setFlag .n v.msb

/-- The result of an addition: the byte, the carry out and the signed overflow. -/
structure Sum where
  result : Byte
  carry : Bool
  overflow : Bool
deriving DecidableEq, Repr

/-- The addition law `add8(a, m, c)` (R220). -/
def add8 (a m : Byte) (c : Bool) : Sum :=
  let s := a.toNat + m.toNat + c.toNat
  let r := BitVec.ofNat 8 s
  { result := r
    carry := decide (255 < s)
    overflow := a.msb == m.msb && r.msb != a.msb }

/-- The subtraction law `sub8(a, m, c) = add8(a, ~m, c)` (R221). -/
def sub8 (a m : Byte) (c : Bool) : Sum := add8 a (~~~m) c

/-- The flags an addition or subtraction leaves: C, V, Z, N (R223, R224). -/
def State.setSumFlags (r : Sum) (s : State) : State :=
  ((s.setFlag .c r.carry).setFlag .v r.overflow).setZN r.result

/-- The compare law `cmp(reg, m)`: C, Z, N (R225). -/
def State.compare (reg m : Byte) (s : State) : State := (s.setFlag .c (decide (m.toNat ≤ reg.toNat))).setZN (reg - m)

/-- The flags of BIT: Z from A and M, N and V from M (R263). -/
def State.bitTest (m : Byte) (s : State) : State :=
  ((s.setFlag .z (s.a &&& m == 0)).setFlag .n (m.getLsbD 7)).setFlag .v (m.getLsbD 6)

/-- A shift or rotate: the result from the operand and the incoming carry, and the bit shifted out. -/
structure Shift where
  result : Byte → Bool → Byte
  out : Byte → Bool

/-- ASL (R264). -/
def Shift.asl : Shift := ⟨fun m _ => m <<< 1, fun m => m.getLsbD 7⟩

/-- LSR (R265). -/
def Shift.lsr : Shift := ⟨fun m _ => m >>> 1, fun m => m.getLsbD 0⟩

/-- ROL (R266). -/
def Shift.rol : Shift := ⟨fun m c => (m <<< 1) ||| (if c then 0x01#8 else 0x00#8), fun m => m.getLsbD 7⟩

/-- ROR (R267). -/
def Shift.ror : Shift := ⟨fun m c => (m >>> 1) ||| (if c then 0x80#8 else 0x00#8), fun m => m.getLsbD 0⟩

/-- The flags a shift or rotate of m leaves: C from the bit shifted out, Z and N from the result r (R268). -/
def State.setShiftFlags (f : Shift) (m r : Byte) (s : State) : State := (s.setFlag .c (f.out m)).setZN r

end Sys2Proof.Machine
end

