-- ==== Sys2Proof/Machine/Memory.lean ====
section
/-! DEFINITION. The bus cells as a list in canonical form: addresses strictly rising and below 65,536, no entry equal to
what an unlisted cell reads as (R31, R60; log 1). -/

namespace Sys2Proof.Machine

/-- What a cell that no image covers and nothing has written reads as. DESIGN CHOICE, unsafe: the spec leaves it a draw
(R480 step 2). Log 1. -/
def Memory.unlisted : Byte := 0x00#8

/-- An entry in front of a list, left out when it holds what an unlisted cell reads as. -/
def Memory.entry (a : Nat) (v : Byte) (rest : Memory) : Memory := if v = Memory.unlisted then rest else (a, v) :: rest

/-- The cell at an address. -/
def Memory.read : Memory → Nat → Byte
  | [], _ => Memory.unlisted
  | (b, v) :: rest, a => if a < b then Memory.unlisted else if a = b then v else Memory.read rest a

/-- The cells with the one at an address set, in canonical form. -/
def Memory.write : Memory → Nat → Byte → Memory
  | [], a, v => Memory.entry a v []
  | (b, u) :: rest, a, v =>
    if a < b then Memory.entry a v ((b, u) :: rest)
    else if a = b then Memory.entry a v rest
    else (b, u) :: Memory.write rest a v

/-- The canonical form, for addresses from lo up. -/
def Memory.wfFrom : Nat → Memory → Bool
  | _, [] => true
  | lo, (a, v) :: rest => decide (lo ≤ a) && decide (a < 65536) && decide (v ≠ Memory.unlisted) && Memory.wfFrom (a + 1) rest

/-- The canonical form of a memory. -/
def Memory.wf (m : Memory) : Bool := Memory.wfFrom 0 m

/-- `RawRead(addr)`: the cell, no hook (R64). -/
def State.rawRead (a : Word) (s : State) : Byte := Memory.read s.mem a.toNat

/-- `RawWrite(addr, v)`: set the cell, no hook (R64). -/
def State.rawWrite (a : Word) (v : Byte) (s : State) : State := { s with mem := Memory.write s.mem a.toNat v }

end Sys2Proof.Machine
end

