-- ==== Sys2Proof/Machine/Via.lean ====
section
/-! DEFINITION. The VIA interrupt controller: its register semantics as the bus's read and write hooks (R430 to R444),
and the steps of the agents that write its state, timers and key events (R445, R452). -/

namespace Sys2Proof.Machine

/-- The mask of one source bit. -/
def sourceMask (k : Fin 7) : BitVec 7 := 1#7 <<< k.val

/-- The mask of one bit of a byte. -/
def bitMask (k : Fin 8) : Byte := 1#8 <<< k.val

/-- `Fire(src)`: an enabled source becomes pending and notified; a disabled one's firing is lost (R452). -/
def State.fire (src : Source) (s : State) : State :=
  if s.enable.getLsbD (s.cfg.sourceBit src).val then
    { s with
      pending := s.pending ||| sourceMask (s.cfg.sourceBit src)
      notified := s.notified ||| sourceMask (s.cfg.sourceBit src) }
  else s

/-- One agent step (R445, R452, R490; log 6 for the stop). -/
def State.agentStep (s : State) : AgentStep → State
  | .fire src => s.fire src
  | .keyDown k => { s with lastKey := some k }
  | .keyUp => { s with lastKey := none }
  | .hostStop => { s with stopRequest := true }

/-- Whether the last-pressed key's column is the last column probed (R41, R443). -/
def State.columnMatch (s : State) : Bool :=
  match s.lastKey with
  | some k => k.extractLsb' 0 4 == s.lastProbe.extractLsb' 0 4
  | none => false

/-- The column-scan fallback of an IFR read: none while autoscan is on; else the column test, or a free value under
`kbdFallback = Draw` (R433, D20; log 10). -/
def State.fallback (s : State) : Bool × State :=
  if s.autoscan then (false, s)
  else
    match s.cfg.kbdFallback with
    | .column => (s.columnMatch, s)
    | .draw => (Config.freeBit s.draws, { s with draws := s.draws + 1 })

/-- `composeIFR()`, given the fallback bit: bit 7 iff a source bit is set and enabled (R433, C4). -/
def State.ifrByte (fallback : Bool) (s : State) : Byte :=
  let bits := if fallback then s.pending ||| sourceMask s.cfg.srcKbd else s.pending
  (if bits &&& s.enable ≠ 0 then 0x80#8 else 0x00#8) ||| bits.setWidth 8

/-- An IER read: bit 7 set, and the enabled sources (R437). -/
def State.ierByte (s : State) : Byte := 0x80#8 ||| s.enable.setWidth 8

/-- `matrixProbe()`: the last probe's bits, and in place of `KEY_PRESSED_BIT` whether the column matches (R443; log 11). -/
def State.matrixProbe (s : State) : Byte :=
  (s.lastProbe &&& ~~~bitMask s.cfg.keyPressedBit) ||| (if s.columnMatch then bitMask s.cfg.keyPressedBit else 0x00#8)

/-- `viaRead(addr)`: the value the VIA's read hook claims the address with, if it does (R430). Only a free value's counter
can change (R434). -/
def State.viaRead (addr : Word) (s : State) : Option (Byte × State) :=
  if addr = s.cfg.viaIfr then some (s.ifrByte s.fallback.1, s.fallback.2)
  else if addr = s.cfg.viaIer then some (s.ierByte, s)
  else if addr = s.cfg.viaKbd ∧ s.autoscan = false then some (s.matrixProbe, s)
  else none

/-- An ORB write: the low nibble switches autoscan; of two equal codes the on code, tested last, stands (R440). -/
def State.orbWrite (v : Byte) (s : State) : State :=
  { s with
    autoscan :=
      if v.extractLsb' 0 4 = s.cfg.autoscanOnCode then true
      else if v.extractLsb' 0 4 = s.cfg.autoscanOffCode then false
      else s.autoscan }

/-- A DDRA write (R441). -/
def State.ddraWrite (v : Byte) (s : State) : State := { s with ddra := v }

/-- A KBD write (R442). -/
def State.kbdWrite (v : Byte) (s : State) : State := { s with lastProbe := v }

/-- An IFR write: with bit 7 clear the written source bits are no longer pending or notified (R435, D14). -/
def State.ifrWrite (v : Byte) (s : State) : State :=
  if v.msb then s
  else { s with pending := s.pending &&& ~~~(v.setWidth 7), notified := s.notified &&& ~~~(v.setWidth 7) }

/-- An IER write: bit 7 selects enabling or disabling the named sources (R436). -/
def State.ierWrite (v : Byte) (s : State) : State :=
  if v.msb then { s with enable := s.enable ||| v.setWidth 7 }
  else { s with enable := s.enable &&& ~~~(v.setWidth 7) }

/-- One line of `viaWrite`: the action, if the address is its register's (R430). -/
def State.atRegister (addr reg : Word) (action : State → State) (s : State) : State := if addr = reg then action s else s

/-- `viaWrite(v, old, addr)`, called after the cell is stored: ORB, DDRA, IFR, IER and KBD, each tested in turn (R430). -/
def State.viaWrite (v : Byte) (addr : Word) (s : State) : State :=
  ((((s.atRegister addr s.cfg.viaOrb (State.orbWrite v)).atRegister addr s.cfg.viaDdra (State.ddraWrite v)).atRegister
    addr s.cfg.viaIfr (State.ifrWrite v)).atRegister addr s.cfg.viaIer (State.ierWrite v)).atRegister
    addr s.cfg.viaKbd (State.kbdWrite v)

/-- What a read hook answers for an address (R32). -/
def readHook : Hook → Word → State → Option (Byte × State)
  | .via, addr, s => s.viaRead addr

/-- What a write hook does with the new value, the old value and the address (R32, R63). -/
def writeHook : Hook → Byte → Byte → Word → State → State
  | .via, v, _, addr, s => s.viaWrite v addr

/-- The read hooks in registration order: the first to respond wins (R62). -/
def askReadHooks : List Hook → Word → State → Option (Byte × State)
  | [], _, _ => none
  | h :: rest, addr, s =>
    match readHook h addr s with
    | some r => some r
    | none => askReadHooks rest addr s

/-- The write hooks in registration order (R63). -/
def runWriteHooks : List Hook → Byte → Byte → Word → State → State
  | [], _, _, _, s => s
  | h :: rest, v, old, addr, s => runWriteHooks rest v old addr (writeHook h v old addr s)

end Sys2Proof.Machine
end

