-- ==== Sys2Proof/Machine/Ops.lean ====
section
/-! DEFINITION. The named operations over registers and the bus (R10): interleaving points (R453), hooked accesses (R62,
R63), the stack (R70 to R73), entering and leaving an interrupt handler (R348, R349, R411), the poll (R410), the
interceptor seam (R302, R303) and the PC advance (R142). -/

namespace Sys2Proof.Machine

/-- The registers of `x[r]` (R10). -/
inductive Reg where
  | a
  | x
  | y
  | s
deriving DecidableEq, Repr

/-- Read `x[r]` (R10). -/
def State.reg (r : Reg) (s : State) : Byte :=
  match r with
  | .a => s.a
  | .x => s.x
  | .y => s.y
  | .s => s.sp

/-- Write `x[r]` (R10). -/
def State.setReg (r : Reg) (v : Byte) (s : State) : State :=
  match r with
  | .a => { s with a := v }
  | .x => { s with x := v }
  | .y => { s with y := v }
  | .s => { s with sp := v }

/-- `zext_16(v8)` (R10). -/
def zext16 (v : Byte) : Word := v.setWidth 16

/-- `sext_16(v8)` (R10). -/
def sext16 (v : Byte) : Word := v.signExtend 16

/-- An interleaving point: the agent steps the schedule has for it happen, in order (R451, R453; log 4). -/
def State.interleave (s : State) : State :=
  match s.schedule with
  | .quiet => s
  | .free n => (Config.freeAgents n).foldl State.agentStep { s with schedule := .free (n + 1) }
  | .slot steps later => steps.foldl State.agentStep { s with schedule := later }

/-- `MemRead(addr, 1)`: the first read hook to respond, else the cell (R62). -/
def State.memRead (addr : Word) (s : State) : Byte × State :=
  match askReadHooks s.cfg.readHooks addr s with
  | some r => r
  | none => (s.rawRead addr, s)

/-- `MemWrite(addr, 1, v)`: store, then run the write hooks (R63). -/
def State.memWrite (addr : Word) (v : Byte) (s : State) : State :=
  runWriteHooks s.cfg.writeHooks v (s.rawRead addr) addr (s.rawWrite addr v)

/-- A hooked read inside a CPU step: an interleaving point, then the access (R453). -/
def State.busRead (addr : Word) (s : State) : Byte × State := s.interleave.memRead addr

/-- A hooked write inside a CPU step: an interleaving point, then the access (R453). -/
def State.busWrite (addr : Word) (v : Byte) (s : State) : State := s.interleave.memWrite addr v

/-- Two hooked reads, the low byte at lo first, then the high byte at hi (R66, R148, R149). -/
def State.busReadPair (lo hi : Word) (s : State) : Word × State :=
  let l := s.busRead lo
  let h := l.2.busRead hi
  (word h.1 l.1, h.2)

/-- `MemRead16(addr)`: the little-endian word at addr, low byte first (R66). -/
def State.busRead16 (addr : Word) (s : State) : Word × State := s.busReadPair addr (addr + 1)

/-- The address of the stack cell an S of sp names (R22). -/
def stackAddr (sp : Byte) : Word := word Config.stackPage sp

/-- `push(v)`: the raw write, then S decremented mod 2^8 (R70, R73). -/
def State.push (v : Byte) (s : State) : State := (s.rawWrite (stackAddr s.sp) v).setReg .s (s.sp - 1)

/-- `pull()`: S incremented mod 2^8, then the raw read (R71, R73). -/
def State.pull (s : State) : Byte × State := (s.rawRead (stackAddr (s.sp + 1)), s.setReg .s (s.sp + 1))

/-- A push inside a CPU step (R453). -/
def State.busPush (v : Byte) (s : State) : State := s.interleave.push v

/-- A pull inside a CPU step (R453). -/
def State.busPull (s : State) : Byte × State := s.interleave.pull

/-- A word pulled low byte first (R72). -/
def State.busPull16 (s : State) : Word × State :=
  let l := s.busPull
  let h := l.2.busPull
  (word h.1 l.1, h.2)

/-- TAKING AN EXCEPTION, shared by BRK and interrupt entry: the return address pushed high byte first, then the status
byte; I set; PC from the IRQ vector (R348, R411). No interleaving point stands before the first push: BRK supplies its
own, interrupt entry has none between its test and it (log 5). -/
def State.enterHandler (ret : Word) (status : Byte) (s : State) : State :=
  let v := ((((s.push (hi8 ret)).busPush (lo8 ret)).busPush status).setFlag .i true).busRead16 Config.vecIrq
  { v.2 with pc := v.1 }

/-- RETURNING FROM AN EXCEPTION (R349, R418): P, then PC, from the frame. -/
def State.returnFromHandler (s : State) : State :=
  let v := s.busPull
  let t := (v.2.setFlags v.1).busPull16
  { t.2 with pc := t.1 }

/-- The status byte BRK and PHP push: B = 1, R = 1 (R29, R201, R348). -/
def State.softwareStatus (s : State) : Byte := s.p ||| 0x30#8

/-- The status byte interrupt entry pushes: B = 0, R = 1 (R29, R411). -/
def State.interruptStatus (s : State) : Byte := (s.p &&& ~~~0x10#8) ||| 0x20#8

/-- `InterruptEntry()`: the saved PC is the next instruction's (R411, R413). -/
def State.interruptEntry (s : State) : State := s.enterHandler s.pc s.interruptStatus

/-- `Poll()`: entry iff a source is notified and I = 0 (R410). -/
def State.poll (s : State) : State := if s.notified ≠ 0 ∧ s.flag .i = false then s.interruptEntry else s

/-- What the next interceptor handler call does: the script's head, or a free value once the script is used up (R303; log 8). -/
def State.nextHandler (s : State) : HandlerEffect × State :=
  match s.handlerScript with
  | e :: rest => (e, { s with handlerScript := rest })
  | [] => (Config.freeHandler s.draws, { s with draws := s.draws + 1 })

/-- A handler's effect: its bus writes through MemWrite, and the registers other than PC (R303). -/
def State.applyHandler (e : HandlerEffect) (s : State) : State :=
  let t := e.writes.foldl (fun t w => t.memWrite w.1 w.2) s
  { t with a := e.a, x := e.x, y := e.y, sp := e.sp, p := e.p }

/-- `Intercept(EA)`: whether a handler registered for the call target handled the call, and the state it left. The handler
is one host step with an interleaving point before it (R302, R303; log 8). -/
def State.intercept (target : Word) (s : State) : Bool × State :=
  if s.cfg.interceptors.contains target then
    let e := s.interleave.nextHandler
    (e.1.handled, e.2.applyHandler e.1)
  else (false, s)

/-- The PC-advance step: PC <- pc0 + len (R142), the end of an instruction that did not alter PC. -/
def State.advance (len : Nat) (s : State) : State := { s with pc := s.pc + BitVec.ofNat 16 len }

/-- `pc <- target` (R10, R142). -/
def State.jump (target : Word) (s : State) : State := { s with pc := target }

end Sys2Proof.Machine
end

