-- ==== Sys2Proof/Machine/Operands.lean ====
section
/-! DEFINITION. Operand forms: the effective address of every mode (R143 to R151), the operand byte M (R150), and the
shapes of instruction the rules share: reading an operand, storing, and read-modify-write (R152, R268). Each shape takes
the instruction's opcode byte, which an addressing-mode fault and a decimal refusal record (R401, R403). -/

namespace Sys2Proof.Machine

/-- Where JMP indirect reads the high byte of its target: the next address within the page with the NMOS behaviour,
else the next address (R149). -/
def indirectHigh (pageWrap : Bool) (ptr : Word) : Word := if pageWrap then word (hi8 ptr) (lo8 ptr + 1) else ptr + 1

/-- `Resolve(mode, b1, b2)` at the instruction's own PC (R145 to R149, R151). A mode with no effective address is asked
for one by no instruction of the table; asking is the addressing-mode fault (R153, R401). -/
def effectiveAddress (op : Byte) (o : Operand) (s : State) : Except Fault (Word × State) :=
  match o with
  | .implied => .error (.addressingModeFault s.pc op .implied)
  | .accumulator => .error (.addressingModeFault s.pc op .accumulator)
  | .immediate _ => .error (.addressingModeFault s.pc op .immediate)
  | .zeroPage b => .ok (zext16 b, s)
  | .zeroPageX b => .ok (zext16 (b + s.x), s)
  | .zeroPageY b => .ok (zext16 (b + s.y), s)
  | .absolute w => .ok (w, s)
  | .absoluteX w => .ok (w + zext16 s.x, s)
  | .absoluteY w => .ok (w + zext16 s.y, s)
  | .indirect w => .ok (s.busReadPair w (indirectHigh s.cfg.jmpIndirectPageWrap w))
  | .indexedIndirectX b => .ok (s.busReadPair (zext16 (b + s.x)) (zext16 (b + s.x + 1)))
  | .indirectIndexedY b =>
    let p := s.busReadPair (zext16 b) (zext16 (b + 1))
    .ok (p.1 + zext16 s.y, p.2)
  | .relative b => .ok (s.pc + 2 + sext16 b, s)

/-- Whether a mode's operand is a byte in memory: the modes of R150 other than Immediate. -/
def inMemory : Operand → Bool
  | .zeroPage _ => true
  | .zeroPageX _ => true
  | .zeroPageY _ => true
  | .absolute _ => true
  | .absoluteX _ => true
  | .absoluteY _ => true
  | .indexedIndirectX _ => true
  | .indirectIndexedY _ => true
  | .implied => false
  | .accumulator => false
  | .immediate _ => false
  | .indirect _ => false
  | .relative _ => false

/-- The effective address of an operand in memory; any other mode is the addressing-mode fault (R150, R401). -/
def memoryAddress (op : Byte) (o : Operand) (s : State) : Except Fault (Word × State) :=
  if inMemory o then effectiveAddress op o s else .error (.addressingModeFault s.pc op o.mode)

/-- The operand byte M: b1 for Immediate, else one MemRead at the effective address (R144, R150). -/
def operandByte (op : Byte) (o : Operand) (s : State) : Except Fault (Byte × State) :=
  match o with
  | .immediate b => .ok (b, s)
  | o =>
    match memoryAddress op o s with
    | .ok (ea, s1) => .ok (s1.busRead ea)
    | .error f => .error f

/-- The end of an instruction that did not alter PC (R142). -/
def done (o : Operand) (s : State) : Outcome State := .next (s.advance o.length)

/-- An instruction that reads M and otherwise only computes: f of M and the state the read left. -/
def reading (op : Byte) (o : Operand) (f : Byte → State → State) (s : State) : Outcome State :=
  match operandByte op o s with
  | .ok (m, s1) => done o (f m s1)
  | .error e => .fault e

/-- A store of a byte of the state at the effective address, which is not read (R150, R173). -/
def storing (op : Byte) (o : Operand) (value : State → Byte) (s : State) : Outcome State :=
  match memoryAddress op o s with
  | .ok (ea, s1) => done o (s1.busWrite ea (value s))
  | .error e => .fault e

/-- A read-modify-write on memory: one read and one write at the same address, then the flags (R152): r is the result
from M and the incoming carry, and f the flags M and r leave. -/
def modifying (op : Byte) (o : Operand) (r : Byte → Bool → Byte) (f : Byte → Byte → State → State) (s : State) :
    Outcome State :=
  match memoryAddress op o s with
  | .ok (ea, s1) =>
    let m := s1.busRead ea
    let res := r m.1 (s.flag .c)
    done o (f m.1 res (m.2.busWrite ea res))
  | .error e => .fault e

/-- An instruction with no operand and no bus access (Implied or Accumulator): PC advances by 1. -/
def internal (o : Operand) (f : State → State) (s : State) : Outcome State := done o (f s)

end Sys2Proof.Machine
end

