-- ==== Sys2Proof/Machine/Arithmetic.lean ====
section
/-! DEFINITION. Arithmetic, compare, increment and decrement (43_arithmetic.md). -/

namespace Sys2Proof.Machine

/-- ADC and SBC over a law: `x[A]`, C, V, Z and N from the law applied to A, M and C (R223, R224). With P.D = 1 under
`decimalMode = Refuse` the step is refused once the operand is resolved (R222, R403). -/
def addition (law : Byte → Byte → Bool → Sum) (op : Byte) (o : Operand) (s : State) : Outcome State :=
  match operandByte op o s with
  | .ok (m, s1) =>
    if s.flag .d = true ∧ s.cfg.decimalMode = .refuse then .refused (.decimalArithmetic s.pc op)
    else done o ((s1.setReg .a (law s.a m (s.flag .c)).result).setSumFlags (law s.a m (s.flag .c)))
  | .error e => .fault e

/-- CMP, CPX, CPY: `cmp(x[r], M)`; no register written (R225 to R228). -/
def comparison (r : Reg) (op : Byte) (o : Operand) (s : State) : Outcome State :=
  reading op o (fun m t => t.compare (t.reg r) m) s

/-- INC and DEC: read-modify-write, then Z and N of the result (R229, R232). -/
def stepMemory (f : Byte → Byte) (op : Byte) (o : Operand) (s : State) : Outcome State :=
  modifying op o (fun m _ => f m) (fun _ r t => t.setZN r) s

/-- INX, INY, DEX, DEY (R230, R231, R233, R234). -/
def stepRegister (f : Byte → Byte) (r : Reg) (s : State) : Outcome State :=
  internal .implied (fun t => (t.setReg r (f (t.reg r))).setZN (f (t.reg r))) s

/-- ADC R223, row 0x69, Immediate. -/
def execAdcImm (b : Byte) (s : State) : Outcome State := addition add8 0x69#8 (.immediate b) s

/-- ADC R223, row 0x65, ZeroPage. -/
def execAdcZp (b : Byte) (s : State) : Outcome State := addition add8 0x65#8 (.zeroPage b) s

/-- ADC R223, row 0x75, ZeroPageX. -/
def execAdcZpX (b : Byte) (s : State) : Outcome State := addition add8 0x75#8 (.zeroPageX b) s

/-- ADC R223, row 0x6D, Absolute. -/
def execAdcAbs (w : Word) (s : State) : Outcome State := addition add8 0x6D#8 (.absolute w) s

/-- ADC R223, row 0x7D, AbsoluteX. -/
def execAdcAbsX (w : Word) (s : State) : Outcome State := addition add8 0x7D#8 (.absoluteX w) s

/-- ADC R223, row 0x79, AbsoluteY. -/
def execAdcAbsY (w : Word) (s : State) : Outcome State := addition add8 0x79#8 (.absoluteY w) s

/-- ADC R223, row 0x61, IndexedIndirectX. -/
def execAdcIndX (b : Byte) (s : State) : Outcome State := addition add8 0x61#8 (.indexedIndirectX b) s

/-- ADC R223, row 0x71, IndirectIndexedY. -/
def execAdcIndY (b : Byte) (s : State) : Outcome State := addition add8 0x71#8 (.indirectIndexedY b) s

/-- SBC R224, row 0xE9, Immediate. -/
def execSbcImm (b : Byte) (s : State) : Outcome State := addition sub8 0xE9#8 (.immediate b) s

/-- SBC R224, row 0xE5, ZeroPage. -/
def execSbcZp (b : Byte) (s : State) : Outcome State := addition sub8 0xE5#8 (.zeroPage b) s

/-- SBC R224, row 0xF5, ZeroPageX. -/
def execSbcZpX (b : Byte) (s : State) : Outcome State := addition sub8 0xF5#8 (.zeroPageX b) s

/-- SBC R224, row 0xED, Absolute. -/
def execSbcAbs (w : Word) (s : State) : Outcome State := addition sub8 0xED#8 (.absolute w) s

/-- SBC R224, row 0xFD, AbsoluteX. -/
def execSbcAbsX (w : Word) (s : State) : Outcome State := addition sub8 0xFD#8 (.absoluteX w) s

/-- SBC R224, row 0xF9, AbsoluteY. -/
def execSbcAbsY (w : Word) (s : State) : Outcome State := addition sub8 0xF9#8 (.absoluteY w) s

/-- SBC R224, row 0xE1, IndexedIndirectX. -/
def execSbcIndX (b : Byte) (s : State) : Outcome State := addition sub8 0xE1#8 (.indexedIndirectX b) s

/-- SBC R224, row 0xF1, IndirectIndexedY. -/
def execSbcIndY (b : Byte) (s : State) : Outcome State := addition sub8 0xF1#8 (.indirectIndexedY b) s

/-- CMP R226, row 0xC9, Immediate. -/
def execCmpImm (b : Byte) (s : State) : Outcome State := comparison .a 0xC9#8 (.immediate b) s

/-- CMP R226, row 0xC5, ZeroPage. -/
def execCmpZp (b : Byte) (s : State) : Outcome State := comparison .a 0xC5#8 (.zeroPage b) s

/-- CMP R226, row 0xD5, ZeroPageX. -/
def execCmpZpX (b : Byte) (s : State) : Outcome State := comparison .a 0xD5#8 (.zeroPageX b) s

/-- CMP R226, row 0xCD, Absolute. -/
def execCmpAbs (w : Word) (s : State) : Outcome State := comparison .a 0xCD#8 (.absolute w) s

/-- CMP R226, row 0xDD, AbsoluteX. -/
def execCmpAbsX (w : Word) (s : State) : Outcome State := comparison .a 0xDD#8 (.absoluteX w) s

/-- CMP R226, row 0xD9, AbsoluteY. -/
def execCmpAbsY (w : Word) (s : State) : Outcome State := comparison .a 0xD9#8 (.absoluteY w) s

/-- CMP R226, row 0xC1, IndexedIndirectX. -/
def execCmpIndX (b : Byte) (s : State) : Outcome State := comparison .a 0xC1#8 (.indexedIndirectX b) s

/-- CMP R226, row 0xD1, IndirectIndexedY. -/
def execCmpIndY (b : Byte) (s : State) : Outcome State := comparison .a 0xD1#8 (.indirectIndexedY b) s

/-- CPX R227, row 0xE0, Immediate. -/
def execCpxImm (b : Byte) (s : State) : Outcome State := comparison .x 0xE0#8 (.immediate b) s

/-- CPX R227, row 0xE4, ZeroPage. -/
def execCpxZp (b : Byte) (s : State) : Outcome State := comparison .x 0xE4#8 (.zeroPage b) s

/-- CPX R227, row 0xEC, Absolute. -/
def execCpxAbs (w : Word) (s : State) : Outcome State := comparison .x 0xEC#8 (.absolute w) s

/-- CPY R228, row 0xC0, Immediate. -/
def execCpyImm (b : Byte) (s : State) : Outcome State := comparison .y 0xC0#8 (.immediate b) s

/-- CPY R228, row 0xC4, ZeroPage. -/
def execCpyZp (b : Byte) (s : State) : Outcome State := comparison .y 0xC4#8 (.zeroPage b) s

/-- CPY R228, row 0xCC, Absolute. -/
def execCpyAbs (w : Word) (s : State) : Outcome State := comparison .y 0xCC#8 (.absolute w) s

/-- INC R229, row 0xE6, ZeroPage. -/
def execIncZp (b : Byte) (s : State) : Outcome State := stepMemory (fun m => m + 1) 0xE6#8 (.zeroPage b) s

/-- INC R229, row 0xF6, ZeroPageX. -/
def execIncZpX (b : Byte) (s : State) : Outcome State := stepMemory (fun m => m + 1) 0xF6#8 (.zeroPageX b) s

/-- INC R229, row 0xEE, Absolute. -/
def execIncAbs (w : Word) (s : State) : Outcome State := stepMemory (fun m => m + 1) 0xEE#8 (.absolute w) s

/-- INC R229, row 0xFE, AbsoluteX. -/
def execIncAbsX (w : Word) (s : State) : Outcome State := stepMemory (fun m => m + 1) 0xFE#8 (.absoluteX w) s

/-- INX R230, row 0xE8, Implied. -/
def execInx (s : State) : Outcome State := stepRegister (fun m => m + 1) .x s

/-- INY R231, row 0xC8, Implied. -/
def execIny (s : State) : Outcome State := stepRegister (fun m => m + 1) .y s

/-- DEC R232, row 0xC6, ZeroPage. -/
def execDecZp (b : Byte) (s : State) : Outcome State := stepMemory (fun m => m - 1) 0xC6#8 (.zeroPage b) s

/-- DEC R232, row 0xD6, ZeroPageX. -/
def execDecZpX (b : Byte) (s : State) : Outcome State := stepMemory (fun m => m - 1) 0xD6#8 (.zeroPageX b) s

/-- DEC R232, row 0xCE, Absolute. -/
def execDecAbs (w : Word) (s : State) : Outcome State := stepMemory (fun m => m - 1) 0xCE#8 (.absolute w) s

/-- DEC R232, row 0xDE, AbsoluteX. -/
def execDecAbsX (w : Word) (s : State) : Outcome State := stepMemory (fun m => m - 1) 0xDE#8 (.absoluteX w) s

/-- DEX R233, row 0xCA, Implied. -/
def execDex (s : State) : Outcome State := stepRegister (fun m => m - 1) .x s

/-- DEY R234, row 0x88, Implied. -/
def execDey (s : State) : Outcome State := stepRegister (fun m => m - 1) .y s

end Sys2Proof.Machine
end

