-- ==== Sys2Proof/Machine/Control.lean ====
section
/-! DEFINITION. Jumps, subroutine calls, returns and branches (45_control.md). -/

namespace Sys2Proof.Machine

/-- JMP: `pc <- EA`; the target is not read (R300). -/
def jumping (op : Byte) (o : Operand) (s : State) : Outcome State :=
  match effectiveAddress op o s with
  | .ok (ea, s1) => .next (s1.jump ea)
  | .error e => .fault e

/-- A branch on one flag: taken, `pc <- target`; else PC advances by 2 (R305, R151). -/
def branching (f : Flag) (taken : Bool) (op : Byte) (b : Byte) (s : State) : Outcome State :=
  if s.flag f = taken then jumping op (.relative b) s else done (.relative b) s

/-- The body of a call the interceptors did not handle: pc0 + 2 pushed high byte first, then the jump (R301). -/
def calling (target : Word) (s : State) : State :=
  ((s.busPush (hi8 (s.pc + 2))).busPush (lo8 (s.pc + 2))).jump target

/-- JMP R300, row 0x4C, Absolute. -/
def execJmpAbs (w : Word) (s : State) : Outcome State := jumping 0x4C#8 (.absolute w) s

/-- JMP R300, row 0x6C, Indirect. -/
def execJmpInd (w : Word) (s : State) : Outcome State := jumping 0x6C#8 (.indirect w) s

/-- R301, row 0x20: a handled call pushes nothing and PC advances by 3; else R301 runs on the state the handler left
(R301, R302). -/
def execJsr (w : Word) (s : State) : Outcome State :=
  match s.intercept w with
  | (true, t) => done (.absolute w) t
  | (false, t) => .next (calling w t)

/-- RTS R304, row 0x60, Implied: PC from the stack plus one. -/
def execRts (s : State) : Outcome State := .next (s.busPull16.2.jump (s.busPull16.1 + 1))

/-- BCC R306, row 0x90, Relative. -/
def execBcc (b : Byte) (s : State) : Outcome State := branching .c false 0x90#8 b s

/-- BCS R307, row 0xB0, Relative. -/
def execBcs (b : Byte) (s : State) : Outcome State := branching .c true 0xB0#8 b s

/-- BEQ R308, row 0xF0, Relative. -/
def execBeq (b : Byte) (s : State) : Outcome State := branching .z true 0xF0#8 b s

/-- BNE R309, row 0xD0, Relative. -/
def execBne (b : Byte) (s : State) : Outcome State := branching .z false 0xD0#8 b s

/-- BMI R310, row 0x30, Relative. -/
def execBmi (b : Byte) (s : State) : Outcome State := branching .n true 0x30#8 b s

/-- BPL R311, row 0x10, Relative. -/
def execBpl (b : Byte) (s : State) : Outcome State := branching .n false 0x10#8 b s

/-- BVC R312, row 0x50, Relative. -/
def execBvc (b : Byte) (s : State) : Outcome State := branching .v false 0x50#8 b s

/-- BVS R313, row 0x70, Relative. -/
def execBvs (b : Byte) (s : State) : Outcome State := branching .v true 0x70#8 b s

end Sys2Proof.Machine
end

