-- ==== Sys2Proof/Machine/LoadStore.lean ====
section
/-! DEFINITION. Load, store and register-transfer instructions (41_load_store_transfer.md). -/

namespace Sys2Proof.Machine

/-- LDA, LDX, LDY: `x[r] <- M; setZN(M)` (R170 to R172). -/
def load (r : Reg) (op : Byte) (o : Operand) (s : State) : Outcome State :=
  reading op o (fun m t => (t.setReg r m).setZN m) s

/-- STA, STX, STY: `MemWrite(EA, 1, x[r])`; no flags (R173 to R175). -/
def store (r : Reg) (op : Byte) (o : Operand) (s : State) : Outcome State := storing op o (State.reg r) s

/-- TAX, TAY, TXA, TYA, TSX: `x[dst] <- x[src]; setZN(x[dst])` (R176 to R180). -/
def transfer (src dst : Reg) (s : State) : Outcome State :=
  internal .implied (fun t => (t.setReg dst (t.reg src)).setZN (t.reg src)) s

/-- LDA R170, row 0xA9, Immediate. -/
def execLdaImm (b : Byte) (s : State) : Outcome State := load .a 0xA9#8 (.immediate b) s

/-- LDA R170, row 0xA5, ZeroPage. -/
def execLdaZp (b : Byte) (s : State) : Outcome State := load .a 0xA5#8 (.zeroPage b) s

/-- LDA R170, row 0xB5, ZeroPageX. -/
def execLdaZpX (b : Byte) (s : State) : Outcome State := load .a 0xB5#8 (.zeroPageX b) s

/-- LDA R170, row 0xAD, Absolute. -/
def execLdaAbs (w : Word) (s : State) : Outcome State := load .a 0xAD#8 (.absolute w) s

/-- LDA R170, row 0xBD, AbsoluteX. -/
def execLdaAbsX (w : Word) (s : State) : Outcome State := load .a 0xBD#8 (.absoluteX w) s

/-- LDA R170, row 0xB9, AbsoluteY. -/
def execLdaAbsY (w : Word) (s : State) : Outcome State := load .a 0xB9#8 (.absoluteY w) s

/-- LDA R170, row 0xA1, IndexedIndirectX. -/
def execLdaIndX (b : Byte) (s : State) : Outcome State := load .a 0xA1#8 (.indexedIndirectX b) s

/-- LDA R170, row 0xB1, IndirectIndexedY. -/
def execLdaIndY (b : Byte) (s : State) : Outcome State := load .a 0xB1#8 (.indirectIndexedY b) s

/-- LDX R171, row 0xA2, Immediate. -/
def execLdxImm (b : Byte) (s : State) : Outcome State := load .x 0xA2#8 (.immediate b) s

/-- LDX R171, row 0xA6, ZeroPage. -/
def execLdxZp (b : Byte) (s : State) : Outcome State := load .x 0xA6#8 (.zeroPage b) s

/-- LDX R171, row 0xB6, ZeroPageY. -/
def execLdxZpY (b : Byte) (s : State) : Outcome State := load .x 0xB6#8 (.zeroPageY b) s

/-- LDX R171, row 0xAE, Absolute. -/
def execLdxAbs (w : Word) (s : State) : Outcome State := load .x 0xAE#8 (.absolute w) s

/-- LDX R171, row 0xBE, AbsoluteY. -/
def execLdxAbsY (w : Word) (s : State) : Outcome State := load .x 0xBE#8 (.absoluteY w) s

/-- LDY R172, row 0xA0, Immediate. -/
def execLdyImm (b : Byte) (s : State) : Outcome State := load .y 0xA0#8 (.immediate b) s

/-- LDY R172, row 0xA4, ZeroPage. -/
def execLdyZp (b : Byte) (s : State) : Outcome State := load .y 0xA4#8 (.zeroPage b) s

/-- LDY R172, row 0xB4, ZeroPageX. -/
def execLdyZpX (b : Byte) (s : State) : Outcome State := load .y 0xB4#8 (.zeroPageX b) s

/-- LDY R172, row 0xAC, Absolute. -/
def execLdyAbs (w : Word) (s : State) : Outcome State := load .y 0xAC#8 (.absolute w) s

/-- LDY R172, row 0xBC, AbsoluteX. -/
def execLdyAbsX (w : Word) (s : State) : Outcome State := load .y 0xBC#8 (.absoluteX w) s

/-- STA R173, row 0x85, ZeroPage. -/
def execStaZp (b : Byte) (s : State) : Outcome State := store .a 0x85#8 (.zeroPage b) s

/-- STA R173, row 0x95, ZeroPageX. -/
def execStaZpX (b : Byte) (s : State) : Outcome State := store .a 0x95#8 (.zeroPageX b) s

/-- STA R173, row 0x8D, Absolute. -/
def execStaAbs (w : Word) (s : State) : Outcome State := store .a 0x8D#8 (.absolute w) s

/-- STA R173, row 0x9D, AbsoluteX. -/
def execStaAbsX (w : Word) (s : State) : Outcome State := store .a 0x9D#8 (.absoluteX w) s

/-- STA R173, row 0x99, AbsoluteY. -/
def execStaAbsY (w : Word) (s : State) : Outcome State := store .a 0x99#8 (.absoluteY w) s

/-- STA R173, row 0x81, IndexedIndirectX. -/
def execStaIndX (b : Byte) (s : State) : Outcome State := store .a 0x81#8 (.indexedIndirectX b) s

/-- STA R173, row 0x91, IndirectIndexedY. -/
def execStaIndY (b : Byte) (s : State) : Outcome State := store .a 0x91#8 (.indirectIndexedY b) s

/-- STX R174, row 0x86, ZeroPage. -/
def execStxZp (b : Byte) (s : State) : Outcome State := store .x 0x86#8 (.zeroPage b) s

/-- STX R174, row 0x96, ZeroPageY. -/
def execStxZpY (b : Byte) (s : State) : Outcome State := store .x 0x96#8 (.zeroPageY b) s

/-- STX R174, row 0x8E, Absolute. -/
def execStxAbs (w : Word) (s : State) : Outcome State := store .x 0x8E#8 (.absolute w) s

/-- STY R175, row 0x84, ZeroPage. -/
def execStyZp (b : Byte) (s : State) : Outcome State := store .y 0x84#8 (.zeroPage b) s

/-- STY R175, row 0x94, ZeroPageX. -/
def execStyZpX (b : Byte) (s : State) : Outcome State := store .y 0x94#8 (.zeroPageX b) s

/-- STY R175, row 0x8C, Absolute. -/
def execStyAbs (w : Word) (s : State) : Outcome State := store .y 0x8C#8 (.absolute w) s

/-- TAX R176, row 0xAA, Implied. -/
def execTax (s : State) : Outcome State := transfer .a .x s

/-- TAY R177, row 0xA8, Implied. -/
def execTay (s : State) : Outcome State := transfer .a .y s

/-- TXA R178, row 0x8A, Implied. -/
def execTxa (s : State) : Outcome State := transfer .x .a s

/-- TYA R179, row 0x98, Implied. -/
def execTya (s : State) : Outcome State := transfer .y .a s

/-- TSX R180, row 0xBA, Implied. -/
def execTsx (s : State) : Outcome State := transfer .s .x s

/-- TXS R181, row 0x9A, Implied: `x[S] <- x[X]`; no flags. -/
def execTxs (s : State) : Outcome State := internal .implied (fun t => t.setReg .s t.x) s

end Sys2Proof.Machine
end

