-- ==== Sys2Proof/Machine/Logic.lean ====
section
/-! DEFINITION. Logical, bit-test, shift and rotate instructions (44_logic_shift.md). -/

namespace Sys2Proof.Machine

/-- AND, ORA, EOR: `x[A] <- x[A] op M; setZN(x[A])` (R260 to R262). -/
def logical (f : Byte → Byte → Byte) (op : Byte) (o : Operand) (s : State) : Outcome State :=
  reading op o (fun m t => (t.setReg .a (f t.a m)).setZN (f t.a m)) s

/-- BIT: Z, N and V from A and M; A unchanged (R263). -/
def bitTesting (op : Byte) (o : Operand) (s : State) : Outcome State := reading op o State.bitTest s

/-- A shift or rotate of A (R268). -/
def shiftA (f : Shift) (s : State) : Outcome State :=
  internal .accumulator
    (fun t => (t.setReg .a (f.result t.a (t.flag .c))).setShiftFlags f t.a (f.result t.a (t.flag .c))) s

/-- A shift or rotate of memory (R152, R268). -/
def shiftMemory (f : Shift) (op : Byte) (o : Operand) (s : State) : Outcome State :=
  modifying op o f.result (State.setShiftFlags f) s

/-- AND R260, row 0x29, Immediate. -/
def execAndImm (b : Byte) (s : State) : Outcome State := logical (fun a m => a &&& m) 0x29#8 (.immediate b) s

/-- AND R260, row 0x25, ZeroPage. -/
def execAndZp (b : Byte) (s : State) : Outcome State := logical (fun a m => a &&& m) 0x25#8 (.zeroPage b) s

/-- AND R260, row 0x35, ZeroPageX. -/
def execAndZpX (b : Byte) (s : State) : Outcome State := logical (fun a m => a &&& m) 0x35#8 (.zeroPageX b) s

/-- AND R260, row 0x2D, Absolute. -/
def execAndAbs (w : Word) (s : State) : Outcome State := logical (fun a m => a &&& m) 0x2D#8 (.absolute w) s

/-- AND R260, row 0x3D, AbsoluteX. -/
def execAndAbsX (w : Word) (s : State) : Outcome State := logical (fun a m => a &&& m) 0x3D#8 (.absoluteX w) s

/-- AND R260, row 0x39, AbsoluteY. -/
def execAndAbsY (w : Word) (s : State) : Outcome State := logical (fun a m => a &&& m) 0x39#8 (.absoluteY w) s

/-- AND R260, row 0x21, IndexedIndirectX. -/
def execAndIndX (b : Byte) (s : State) : Outcome State := logical (fun a m => a &&& m) 0x21#8 (.indexedIndirectX b) s

/-- AND R260, row 0x31, IndirectIndexedY. -/
def execAndIndY (b : Byte) (s : State) : Outcome State := logical (fun a m => a &&& m) 0x31#8 (.indirectIndexedY b) s

/-- ORA R261, row 0x09, Immediate. -/
def execOraImm (b : Byte) (s : State) : Outcome State := logical (fun a m => a ||| m) 0x09#8 (.immediate b) s

/-- ORA R261, row 0x05, ZeroPage. -/
def execOraZp (b : Byte) (s : State) : Outcome State := logical (fun a m => a ||| m) 0x05#8 (.zeroPage b) s

/-- ORA R261, row 0x15, ZeroPageX. -/
def execOraZpX (b : Byte) (s : State) : Outcome State := logical (fun a m => a ||| m) 0x15#8 (.zeroPageX b) s

/-- ORA R261, row 0x0D, Absolute. -/
def execOraAbs (w : Word) (s : State) : Outcome State := logical (fun a m => a ||| m) 0x0D#8 (.absolute w) s

/-- ORA R261, row 0x1D, AbsoluteX. -/
def execOraAbsX (w : Word) (s : State) : Outcome State := logical (fun a m => a ||| m) 0x1D#8 (.absoluteX w) s

/-- ORA R261, row 0x19, AbsoluteY. -/
def execOraAbsY (w : Word) (s : State) : Outcome State := logical (fun a m => a ||| m) 0x19#8 (.absoluteY w) s

/-- ORA R261, row 0x01, IndexedIndirectX. -/
def execOraIndX (b : Byte) (s : State) : Outcome State := logical (fun a m => a ||| m) 0x01#8 (.indexedIndirectX b) s

/-- ORA R261, row 0x11, IndirectIndexedY. -/
def execOraIndY (b : Byte) (s : State) : Outcome State := logical (fun a m => a ||| m) 0x11#8 (.indirectIndexedY b) s

/-- EOR R262, row 0x49, Immediate. -/
def execEorImm (b : Byte) (s : State) : Outcome State := logical (fun a m => a ^^^ m) 0x49#8 (.immediate b) s

/-- EOR R262, row 0x45, ZeroPage. -/
def execEorZp (b : Byte) (s : State) : Outcome State := logical (fun a m => a ^^^ m) 0x45#8 (.zeroPage b) s

/-- EOR R262, row 0x55, ZeroPageX. -/
def execEorZpX (b : Byte) (s : State) : Outcome State := logical (fun a m => a ^^^ m) 0x55#8 (.zeroPageX b) s

/-- EOR R262, row 0x4D, Absolute. -/
def execEorAbs (w : Word) (s : State) : Outcome State := logical (fun a m => a ^^^ m) 0x4D#8 (.absolute w) s

/-- EOR R262, row 0x5D, AbsoluteX. -/
def execEorAbsX (w : Word) (s : State) : Outcome State := logical (fun a m => a ^^^ m) 0x5D#8 (.absoluteX w) s

/-- EOR R262, row 0x59, AbsoluteY. -/
def execEorAbsY (w : Word) (s : State) : Outcome State := logical (fun a m => a ^^^ m) 0x59#8 (.absoluteY w) s

/-- EOR R262, row 0x41, IndexedIndirectX. -/
def execEorIndX (b : Byte) (s : State) : Outcome State := logical (fun a m => a ^^^ m) 0x41#8 (.indexedIndirectX b) s

/-- EOR R262, row 0x51, IndirectIndexedY. -/
def execEorIndY (b : Byte) (s : State) : Outcome State := logical (fun a m => a ^^^ m) 0x51#8 (.indirectIndexedY b) s

/-- BIT R263, row 0x24, ZeroPage. -/
def execBitZp (b : Byte) (s : State) : Outcome State := bitTesting 0x24#8 (.zeroPage b) s

/-- BIT R263, row 0x2C, Absolute. -/
def execBitAbs (w : Word) (s : State) : Outcome State := bitTesting 0x2C#8 (.absolute w) s

/-- ASL R264, row 0x0A, Accumulator. -/
def execAslAcc (s : State) : Outcome State := shiftA .asl s

/-- ASL R264, row 0x06, ZeroPage. -/
def execAslZp (b : Byte) (s : State) : Outcome State := shiftMemory .asl 0x06#8 (.zeroPage b) s

/-- ASL R264, row 0x16, ZeroPageX. -/
def execAslZpX (b : Byte) (s : State) : Outcome State := shiftMemory .asl 0x16#8 (.zeroPageX b) s

/-- ASL R264, row 0x0E, Absolute. -/
def execAslAbs (w : Word) (s : State) : Outcome State := shiftMemory .asl 0x0E#8 (.absolute w) s

/-- ASL R264, row 0x1E, AbsoluteX. -/
def execAslAbsX (w : Word) (s : State) : Outcome State := shiftMemory .asl 0x1E#8 (.absoluteX w) s

/-- LSR R265, row 0x4A, Accumulator. -/
def execLsrAcc (s : State) : Outcome State := shiftA .lsr s

/-- LSR R265, row 0x46, ZeroPage. -/
def execLsrZp (b : Byte) (s : State) : Outcome State := shiftMemory .lsr 0x46#8 (.zeroPage b) s

/-- LSR R265, row 0x56, ZeroPageX. -/
def execLsrZpX (b : Byte) (s : State) : Outcome State := shiftMemory .lsr 0x56#8 (.zeroPageX b) s

/-- LSR R265, row 0x4E, Absolute. -/
def execLsrAbs (w : Word) (s : State) : Outcome State := shiftMemory .lsr 0x4E#8 (.absolute w) s

/-- LSR R265, row 0x5E, AbsoluteX. -/
def execLsrAbsX (w : Word) (s : State) : Outcome State := shiftMemory .lsr 0x5E#8 (.absoluteX w) s

/-- ROL R266, row 0x2A, Accumulator. -/
def execRolAcc (s : State) : Outcome State := shiftA .rol s

/-- ROL R266, row 0x26, ZeroPage. -/
def execRolZp (b : Byte) (s : State) : Outcome State := shiftMemory .rol 0x26#8 (.zeroPage b) s

/-- ROL R266, row 0x36, ZeroPageX. -/
def execRolZpX (b : Byte) (s : State) : Outcome State := shiftMemory .rol 0x36#8 (.zeroPageX b) s

/-- ROL R266, row 0x2E, Absolute. -/
def execRolAbs (w : Word) (s : State) : Outcome State := shiftMemory .rol 0x2E#8 (.absolute w) s

/-- ROL R266, row 0x3E, AbsoluteX. -/
def execRolAbsX (w : Word) (s : State) : Outcome State := shiftMemory .rol 0x3E#8 (.absoluteX w) s

/-- ROR R267, row 0x6A, Accumulator. -/
def execRorAcc (s : State) : Outcome State := shiftA .ror s

/-- ROR R267, row 0x66, ZeroPage. -/
def execRorZp (b : Byte) (s : State) : Outcome State := shiftMemory .ror 0x66#8 (.zeroPage b) s

/-- ROR R267, row 0x76, ZeroPageX. -/
def execRorZpX (b : Byte) (s : State) : Outcome State := shiftMemory .ror 0x76#8 (.zeroPageX b) s

/-- ROR R267, row 0x6E, Absolute. -/
def execRorAbs (w : Word) (s : State) : Outcome State := shiftMemory .ror 0x6E#8 (.absolute w) s

/-- ROR R267, row 0x7E, AbsoluteX. -/
def execRorAbsX (w : Word) (s : State) : Outcome State := shiftMemory .ror 0x7E#8 (.absoluteX w) s

end Sys2Proof.Machine
end

