-- ==== Sys2Proof/Machine/Stack.lean ====
section
/-! DEFINITION. Stack instructions (42_stack.md). -/

namespace Sys2Proof.Machine

/-- PHA R200, row 0x48, Implied: `push(x[A])`; no flags. -/
def execPha (s : State) : Outcome State := done .implied (s.busPush s.a)

/-- PHP R201, row 0x08, Implied: `push(P | 0x30)`; P unchanged. -/
def execPhp (s : State) : Outcome State := done .implied (s.busPush s.softwareStatus)

/-- PLA R202, row 0x68, Implied: `x[A] <- pull(); setZN`. -/
def execPla (s : State) : Outcome State := done .implied ((s.busPull.2.setReg .a s.busPull.1).setZN s.busPull.1)

/-- PLP R203, row 0x28, Implied: all eight bits of P from the pulled byte. -/
def execPlp (s : State) : Outcome State := done .implied (s.busPull.2.setFlags s.busPull.1)

end Sys2Proof.Machine
end

