-- ==== Sys2Proof/Machine/System.lean ====
section
/-! DEFINITION. Flag, no-operation, break and return-from-interrupt instructions (46_flags_system.md). -/

namespace Sys2Proof.Machine

/-- The flag instructions: one bit of P (R340 to R346). -/
def flagging (f : Flag) (v : Bool) (s : State) : Outcome State := internal .implied (State.setFlag f v) s

/-- CLC R340, row 0x18, Implied. -/
def execClc (s : State) : Outcome State := flagging .c false s

/-- SEC R341, row 0x38, Implied. -/
def execSec (s : State) : Outcome State := flagging .c true s

/-- CLI R342, row 0x58, Implied. -/
def execCli (s : State) : Outcome State := flagging .i false s

/-- SEI R343, row 0x78, Implied. -/
def execSei (s : State) : Outcome State := flagging .i true s

/-- CLD R344, row 0xD8, Implied. -/
def execCld (s : State) : Outcome State := flagging .d false s

/-- SED R345, row 0xF8, Implied. -/
def execSed (s : State) : Outcome State := flagging .d true s

/-- CLV R346, row 0xB8, Implied. -/
def execClv (s : State) : Outcome State := flagging .v false s

/-- NOP R347, row 0xEA, Implied: PC advances by 1, nothing else. -/
def execNop (s : State) : Outcome State := done .implied s

/-- BRK R348, row 0x00, Implied: pc0 + 2 and P with B = R = 1 pushed, I set, PC from 0xFFFE; D and the stored B unchanged. -/
def execBrk (s : State) : Outcome State := .next (s.interleave.enterHandler (s.pc + 2) s.softwareStatus)

/-- RTI R349, row 0x40, Implied: P, then PC, from the frame; no +1. -/
def execRti (s : State) : Outcome State := .next s.returnFromHandler

end Sys2Proof.Machine
end

