-- ==== Sys2Proof/Machine/Cycle.lean ====
section
/-! DEFINITION. The CPU cycle (R141): fetch, decode, execute, poll; the run status around it (R42, R404, R490); and where
the host places an instruction for the next step. -/

namespace Sys2Proof.Machine

/-- n operand bytes from addr up, each a hooked read behind an interleaving point (R103, R141, R453). -/
def fetchBytes : Nat → Word → State → List Byte × State
  | 0, _, s => ([], s)
  | n + 1, addr, s =>
    let b := s.busRead addr
    let rest := fetchBytes n (addr + 1) b.2
    (b.1 :: rest.1, rest.2)

/-- The fetch of a CPU step, after the boundary's interleaving point: the opcode byte at PC, then the operand bytes its
mode asks for. An invalid opcode byte is the decode fault, before any operand byte is read (R141, R400). -/
def fetch (s : State) : Except Fault (Instr × State) :=
  let op := s.memRead s.pc
  match lookup op.1 with
  | none => .error (.decodeFault s.pc op.1)
  | some r =>
    let bytes := fetchBytes r.mode.operandLength (s.pc + 1) op.2
    match decode (op.1 :: bytes.1) with
    | .ok (i, _) => .ok (i, bytes.2)
    | .error _ => .error (.decodeFault s.pc op.1)

/-- The last actions of a CPU step that did not fault or refuse: an interleaving point, then the poll (R410, R453). -/
def finishStep (o : Outcome State) : Outcome State :=
  match o with
  | .next t => .next t.interleave.poll
  | .fault f => .fault f
  | .refused r => .refused r

/-- The CPU step of a state behind its boundary's interleaving point: fetch, execute, poll (R141, R406). -/
def cpuStep (s : State) : Outcome State :=
  match fetch s with
  | .ok (i, t) => finishStep (exec i t)
  | .error f => .fault f

/-- One step at an instruction boundary: the agent steps the schedule holds for it, then the host's stop if it has been
asked for, else a CPU step (R155, R453, R490; log 6). -/
def boundaryStep (s : State) : Outcome State :=
  if s.interleave.stopRequest then .next { s.interleave with status := .stopped } else cpuStep s.interleave

/-- One step: only a running machine has one (R42, R404). -/
def cycle (s : State) : Outcome State :=
  match s.status with
  | .running => boundaryStep s
  | .faulted f => .fault f
  | .refused r => .refused r
  | .stopped => .fault .stopped

/-- What a CPU step that faults or is refused leaves, from its boundary's state: it has written nothing, but the agents
have taken the steps of every interleaving point before the stop. A decode fault stops after the opcode's access, a
refusal after the operand's (R400, R403, R453). -/
def stoppedAt (s : State) : State :=
  match fetch s with
  | .error _ => (s.memRead s.pc).2
  | .ok (i, t) =>
    match operandByte i.opcode i.operand t with
    | .ok (_, u) => u
    | .error _ => t

/-- The state after one step with the run status of R42 recorded: a fault or refusal leaves every register, flag and cell
as it stands (R400, R403), and a machine that is not running stays as it is (R404). Log 7. -/
def settle (s : State) : State :=
  match s.status, cycle s with
  | .running, .next t => t
  | .running, .fault f => { stoppedAt s.interleave with status := .faulted f }
  | .running, .refused r => { stoppedAt s.interleave with status := .refused r }
  | _, _ => s

/-- Bytes written to the cells from an address up, wrapping mod 2^16, with no hook (R487). -/
def storeBytes : List Byte → Word → State → State
  | [], _, s => s
  | b :: rest, addr, s => storeBytes rest (addr + 1) (s.rawWrite addr b)

/-- The state with an instruction, numbered as spec/opcode_table.json numbers its bits, in the cells from PC up. -/
def placeWord (s : State) (nbits w : Nat) : State := storeBytes (tableBytes nbits w) s.pc s

end Sys2Proof.Machine
end

