-- ==== Sys2Proof/Machine/Step.lean ====
section
/-! DEFINITION. The step function and the host's placing of an instruction; both are one call of Cycle.lean. -/

namespace Sys2Proof.Machine

/-- One step of the machine (R140, R141). -/
def step (s : State) : Host.Outcome State Fault Refusal := Sys2Proof.Machine.cycle s

/-- The state with that instruction where step fetches its next one. Nothing but cells changes: the machine fetches at PC. -/
def State.withFetchWord (s : State) (nbits w : Nat) : State := Sys2Proof.Machine.placeWord s nbits w

end Sys2Proof.Machine
end

