-- ==== Sys2Proof/Machine/Launch.lean ====
section
/-! DEFINITION. Construction, reset and launch (R480, R482, R483), the image formats (R487) and the snapshot format (R488). -/

namespace Sys2Proof.Machine

/-- Bytes copied into a memory from an address up, wrapping mod 2^16 (R487). -/
def loadBytes : List Byte → Word → Memory → Memory
  | [], _, m => m
  | b :: rest, addr, m => loadBytes rest (addr + 1) (Memory.write m addr.toNat b)

/-- An image the loaders copied into memory, and its entry point if its format has one (R487). -/
structure Image where
  memory : Memory
  entry : Option Word
deriving DecidableEq, Repr

/-- A ROM image: a flat byte sequence from a base address; no entry point (R487). -/
def loadRom (base : Word) (bytes : List Byte) (m : Memory) : Image := ⟨loadBytes bytes base m, none⟩

/-- A relocatable program: a little-endian origin, then code loaded there; the origin is the entry point (R487). None
where the origin is cut short (log 14). -/
def loadRelocatable (bytes : List Byte) (m : Memory) : Option Image :=
  match bytes with
  | b0 :: b1 :: code => some ⟨loadBytes code (word b1 b0) m, some (word b1 b0)⟩
  | _ => none

/-- The records (origin, payload) of a segmented program, both 16-bit fields little-endian. None where a record is cut
short: the launch is refused (R487, D48; log 14). The fuel bounds the number of records. -/
def segments : Nat → List Byte → Option (List (Word × List Byte))
  | _, [] => some []
  | fuel + 1, o0 :: o1 :: n0 :: n1 :: rest =>
    let n := (word n1 n0).toNat
    if rest.length < n then none
    else (segments fuel (rest.drop n)).map (fun more => (word o1 o0, rest.take n) :: more)
  | _, _ => none

/-- A segmented program: its records in order; the first record's origin is the entry point (R487). -/
def loadSegmented (bytes : List Byte) (m : Memory) : Option Image :=
  (segments bytes.length bytes).map fun rs =>
    ⟨rs.foldl (fun m r => loadBytes r.2 r.1 m) m, (rs.head?).map Prod.fst⟩

/-- The word at VEC_RESET, low byte first (R480 step 6). -/
def State.resetVector (s : State) : Word :=
  let lo := s.memRead Config.vecReset
  let hi := lo.2.memRead (Config.vecReset + 1)
  word hi.1 lo.1

/-- The machine before its CPU is reset (R480 steps 2 to 5): the cells, the VIA's hooks installed, the interceptors
registered, the VIA's state at its reset values; and the agents' schedule, which is open (R451; log 4). -/
def assembled (params : LaunchParams) (initialMemory : Memory) (agents : Schedule) : State :=
  { State.reset with cfg := params.installVia, mem := initialMemory, schedule := agents }

/-- Reset with launch parameters and an initial memory (R480 steps 2 to 6), PC from the reset vector, or from launchPC
when a program image is launched (R482). -/
def launch (params : LaunchParams) (initialMemory : Memory) (launchPC : Option Word) (agents : Schedule) : State :=
  let s := assembled params initialMemory agents
  match launchPC with
  | none => { s with pc := s.resetVector }
  | some e => { s with pc := e }

/-- Machine construction from a decoder table (R480 step 1): a duplicated row is the construction fault, and no step
follows it (R402). -/
def construct (rows : List Row) (params : LaunchParams) (initialMemory : Memory) (launchPC : Option Word)
    (agents : Schedule) : Except Fault State :=
  match duplicateOpcode rows with
  | some op => .error (.constructionFault op)
  | none => .ok (launch params initialMemory launchPC agents)

/-- Saving a snapshot: PC low byte first, S, A, X, Y, P, then every cell in address order, read raw (R488). -/
def saveSnapshot (s : State) : List Byte :=
  [lo8 s.pc, hi8 s.pc, s.sp, s.a, s.x, s.y, s.p] ++ (List.range 65536).map (fun a => Memory.read s.mem a)

/-- Launch from a snapshot: registers and cells from it, the hooks, the interceptors and the VIA's state as at any launch,
no reset-vector read (R483, R488). None where it is not 65,543 bytes. -/
def loadSnapshot (params : LaunchParams) (agents : Schedule) (bytes : List Byte) : Option State :=
  match bytes with
  | p0 :: p1 :: sp :: a :: x :: y :: p :: cells =>
    if cells.length = 65536 then
      some { assembled params (loadBytes cells 0 []) agents with pc := word p1 p0, sp := sp, a := a, x := x, y := y, p := p }
    else none
  | _ => none

end Sys2Proof.Machine
end

