-- ==== Sys2Proof/Safety.lean ====
section
/-! DEFINITION. What counts as a safe run: the invariants every step keeps, and reachability. -/

namespace Sys2Proof.Machine

/-- The source bits that a timer can set (R415). -/
def sourceBits (c : Config) : BitVec 7 := sourceMask c.srcTimer ||| sourceMask c.srcVsync

/-- The invariant of a reachable state: the cells are in canonical form (log 1), `pending = notified` (R38), and no bit
without a source is pending (R415). -/
def State.Inv (s : State) : Prop := s.mem.wf = true ∧ s.pending = s.notified ∧ s.pending &&& ~~~sourceBits s.cfg = 0

/-- The bus hooks are the VIA's alone, as every launch installs them (R32, R430, R480 step 3). -/
abbrev State.viaHooked (s : State) : Prop := s.cfg.readHooks = [.via] ∧ s.cfg.writeHooks = [.via]

/-- The VIA's five registers have five addresses, as R8's defaults do. -/
abbrev State.viaApart (s : State) : Prop := s.cfg.viaRegisters.Nodup

/-- The state behind n interleaving points with nothing in between (R453): what n bus accesses leave of the agents' fields. -/
def State.points : Nat → State → State
  | 0, s => s
  | n + 1, s => State.points n s.interleave

/-- The bus accesses an operand's pointer costs before its effective address is known (R148, R149). -/
def pointerReads (o : Operand) : Nat :=
  match o.mode with
  | .indirect => 2
  | .indexedIndirectX => 2
  | .indirectIndexedY => 2
  | _ => 0

/-- The bus accesses reading the operand byte costs: none for Immediate, else the pointer's and one (R150). -/
def operandReads (o : Operand) : Nat := if o.mode = .immediate then 0 else pointerReads o + 1

/-- A state some run from `s` reaches (R140). -/
inductive Reachable (s : State) : State → Prop where
  | start : Reachable s s
  | step {t u : State} : Reachable s t → step t = .next u → Reachable s u

end Sys2Proof.Machine
end

