-- ==== Sys2Proof/Certificates/Slice0/Obligations.lean ====
section
/-! DEFINITION. The statements for the provers, in the order of OBLIGATIONS.json, after the predicates they share. -/

namespace Sys2Proof.Claims

open Sys2Proof.Machine

/-- The stack cell that an S of sp names: 0x0100 + S (R22). -/
def stackCell (sp : Byte) : Word := 0x0100#16 + sp.setWidth 16

/-- Z and N follow a byte (R27). -/
def ZN (v : Byte) (t : State) : Prop := t.flag .z = decide (v = 0) ∧ t.flag .n = v.getLsbD 7

/-- The registers outside regs and the flags outside flags are as before; so are the run status, the launch parameters and
the handler script; and of the agents' fields, those the CPU never writes are what n interleaving points make of them
(R453). The counter of free values is the model's bookkeeping and is left out. -/
def Frame (regs : List Reg) (flags : List Flag) (n : Nat) (s t : State) : Prop :=
  (∀ r : Reg, r ∉ regs → t.reg r = s.reg r) ∧ (∀ f : Flag, f ∉ flags → t.flag f = s.flag f) ∧
    t.status = s.status ∧ t.cfg = s.cfg ∧ t.handlerScript = s.handlerScript ∧
    t.schedule = (s.points n).schedule ∧ t.stopRequest = (s.points n).stopRequest ∧
    t.lastKey = (s.points n).lastKey

/-- The VIA's fields are as before but for what n interleaving points make of them (R452, R453). -/
def ViaKept (n : Nat) (s t : State) : Prop :=
  t.pending = (s.points n).pending ∧ t.notified = (s.points n).notified ∧ t.enable = s.enable ∧
    t.autoscan = s.autoscan ∧ t.ddra = s.ddra ∧ t.lastProbe = s.lastProbe

/-- The VIA's fields are what the VIA's write hook makes of v written at a, behind n interleaving points (R430). -/
def ViaWritten (n : Nat) (a : Word) (v : Byte) (s t : State) : Prop :=
  let u := (s.points n).viaWrite v a
  t.pending = u.pending ∧ t.notified = u.notified ∧ t.enable = u.enable ∧
    t.autoscan = u.autoscan ∧ t.ddra = u.ddra ∧ t.lastProbe = u.lastProbe

/-- Every cell outside the stored ones reads as before. -/
def CellsKept (stored : List Word) (s t : State) : Prop := ∀ c : Word, c ∉ stored → t.rawRead c = s.rawRead c

/-- An instruction that reads its operand byte m completes: PC advances by its length, m and the state after satisfy post,
nothing outside regs and flags changes, and no cell does. -/
def ReadsThen (regs : List Reg) (flags : List Flag) (post : Byte → State → State → Prop) (i : Instr) (s : State) : Prop :=
  ∃ (m : Byte) (s1 t : State), operandByte i.opcode i.operand s = .ok (m, s1) ∧ exec i s = .next t ∧ post m s t ∧
    t.pc = s.pc + BitVec.ofNat 16 i.length ∧ Frame regs flags (operandReads i.operand) s t ∧
    ViaKept (operandReads i.operand) s t ∧ CellsKept [] s t

/-- An instruction that writes the byte v at the address a completes with n bus accesses in all: PC advances by its length,
the cell holds v, every other cell, every register and every flag outside flags is as before, and the VIA's fields are what
its write hook makes of the write, unchanged where the address is none of its registers. -/
def Writes (flags : List Flag) (n : Nat) (a : Word) (v : Byte) (i : Instr) (s t : State) : Prop :=
  t.pc = s.pc + BitVec.ofNat 16 i.length ∧ t.rawRead a = v ∧ CellsKept [a] s t ∧ Frame [] flags n s t ∧
    (s.viaHooked → ViaWritten n a v s t) ∧ (a ∉ s.cfg.viaRegisters → ViaKept n s t)

/-- A store of the byte v completes (R173): the effective address is the one the meaning computes. -/
def StoresByte (v : Byte) (i : Instr) (s : State) : Prop :=
  ∃ (ea : Word) (s1 t : State), effectiveAddress i.opcode i.operand s = .ok (ea, s1) ∧ exec i s = .next t ∧
    Writes [] (pointerReads i.operand + 1) ea v i s t

/-- A read-modify-write completes (R152): m is the byte read at the effective address, result m the byte written there. -/
def ModifiesByte (flags : List Flag) (result : Byte → State → Byte) (post : Byte → Byte → State → Prop) (i : Instr)
    (s : State) : Prop :=
  ∃ (ea : Word) (s1 t : State), effectiveAddress i.opcode i.operand s = .ok (ea, s1) ∧ exec i s = .next t ∧
    Writes flags (pointerReads i.operand + 2) ea (result (s1.busRead ea).1 s) i s t ∧
    post (s1.busRead ea).1 (result (s1.busRead ea).1 s) t

/-- The eight operand forms of ADC, SBC, CMP, AND, ORA, EOR and LDA. -/
def eightForms (imm : Byte → Instr) (zp zpX : Byte → Instr) (abs absX absY : Word → Instr) (indX indY : Byte → Instr)
    (b : Byte) (w : Word) : List Instr := [imm b, zp b, zpX b, abs w, absX w, absY w, indX b, indY b]

def ldaForms := eightForms .ldaImm .ldaZp .ldaZpX .ldaAbs .ldaAbsX .ldaAbsY .ldaIndX .ldaIndY
def adcForms := eightForms .adcImm .adcZp .adcZpX .adcAbs .adcAbsX .adcAbsY .adcIndX .adcIndY
def sbcForms := eightForms .sbcImm .sbcZp .sbcZpX .sbcAbs .sbcAbsX .sbcAbsY .sbcIndX .sbcIndY
def cmpForms := eightForms .cmpImm .cmpZp .cmpZpX .cmpAbs .cmpAbsX .cmpAbsY .cmpIndX .cmpIndY
def andForms := eightForms .andImm .andZp .andZpX .andAbs .andAbsX .andAbsY .andIndX .andIndY
def oraForms := eightForms .oraImm .oraZp .oraZpX .oraAbs .oraAbsX .oraAbsY .oraIndX .oraIndY
def eorForms := eightForms .eorImm .eorZp .eorZpX .eorAbs .eorAbsX .eorAbsY .eorIndX .eorIndY

def ldxForms (b : Byte) (w : Word) : List Instr := [.ldxImm b, .ldxZp b, .ldxZpY b, .ldxAbs w, .ldxAbsY w]
def ldyForms (b : Byte) (w : Word) : List Instr := [.ldyImm b, .ldyZp b, .ldyZpX b, .ldyAbs w, .ldyAbsX w]
def staForms (b : Byte) (w : Word) : List Instr :=
  [.staZp b, .staZpX b, .staAbs w, .staAbsX w, .staAbsY w, .staIndX b, .staIndY b]
def stxForms (b : Byte) (w : Word) : List Instr := [.stxZp b, .stxZpY b, .stxAbs w]
def styForms (b : Byte) (w : Word) : List Instr := [.styZp b, .styZpX b, .styAbs w]
def cpxForms (b : Byte) (w : Word) : List Instr := [.cpxImm b, .cpxZp b, .cpxAbs w]
def cpyForms (b : Byte) (w : Word) : List Instr := [.cpyImm b, .cpyZp b, .cpyAbs w]
def bitForms (b : Byte) (w : Word) : List Instr := [.bitZp b, .bitAbs w]

/-- The memory forms of INC, DEC and the shifts. -/
def memoryForms (zp zpX : Byte → Instr) (abs absX : Word → Instr) (b : Byte) (w : Word) : List Instr :=
  [zp b, zpX b, abs w, absX w]

def incForms := memoryForms .incZp .incZpX .incAbs .incAbsX
def decForms := memoryForms .decZp .decZpX .decAbs .decAbsX
def aslForms := memoryForms .aslZp .aslZpX .aslAbs .aslAbsX
def lsrForms := memoryForms .lsrZp .lsrZpX .lsrAbs .lsrAbsX
def rolForms := memoryForms .rolZp .rolZpX .rolAbs .rolAbsX
def rorForms := memoryForms .rorZp .rorZpX .rorAbs .rorAbsX

/-- The opcode bytes and operands the table gives a list of instructions (R109). -/
def Rows (is : List Instr) (ops : List Byte) (os : List Operand) : Prop :=
  is.map Instr.opcode = ops ∧ is.map Instr.operand = os

/-- The operands of eightForms. -/
def eightOperands (b : Byte) (w : Word) : List Operand :=
  [.immediate b, .zeroPage b, .zeroPageX b, .absolute w, .absoluteX w, .absoluteY w, .indexedIndirectX b,
    .indirectIndexedY b]

/-- The operands of memoryForms. -/
def memoryOperands (b : Byte) (w : Word) : List Operand := [.zeroPage b, .zeroPageX b, .absolute w, .absoluteX w]

/-- The mnemonics R26 lists as writers of a flag. -/
def flagWriters : Flag → List Mnemonic
  | .c => [.adc, .sbc, .cmp, .cpx, .cpy, .asl, .lsr, .rol, .ror, .clc, .sec, .plp, .rti]
  | .z => [.lda, .ldx, .ldy, .tax, .tay, .txa, .tya, .tsx, .pla, .adc, .sbc, .and, .ora, .eor, .asl, .lsr, .rol, .ror,
      .inc, .dec, .inx, .iny, .dex, .dey, .cmp, .cpx, .cpy, .bit, .plp, .rti]
  | .i => [.sei, .cli, .plp, .rti, .brk]
  | .d => [.sed, .cld, .plp, .rti]
  | .b => [.plp, .rti]
  | .r => [.plp, .rti]
  | .v => [.adc, .sbc, .bit, .clv, .plp, .rti]
  | .n => [.lda, .ldx, .ldy, .tax, .tay, .txa, .tya, .tsx, .pla, .adc, .sbc, .and, .ora, .eor, .asl, .lsr, .rol, .ror,
      .inc, .dec, .inx, .iny, .dex, .dey, .cmp, .cpx, .cpy, .bit, .plp, .rti]

/-- The mnemonics R30 lists as writers of a register; a shift writes A in its Accumulator form only. -/
def registerWriters : Reg → List Mnemonic
  | .a => [.lda, .txa, .tya, .pla, .adc, .sbc, .and, .ora, .eor]
  | .x => [.ldx, .tax, .tsx, .inx, .dex]
  | .y => [.ldy, .tay, .iny, .dey]
  | .s => [.txs, .pha, .php, .pla, .plp, .jsr, .rts, .rti, .brk]

/-- The mnemonics whose rules write bus cells: stores and pushes; INC, DEC and the shifts do in their memory forms. -/
def cellWriters : List Mnemonic :=
  [.sta, .stx, .sty, .inc, .dec, .asl, .lsr, .rol, .ror, .pha, .php, .jsr, .brk]

/-- The mnemonics whose rules write with MemWrite, the hooked write (R65). -/
def hookedWriters : List Mnemonic := [.sta, .stx, .sty, .inc, .dec, .asl, .lsr, .rol, .ror]

/-- The address of the high byte of JMP indirect's target: the next one, within the pointer's page with the NMOS
behaviour (R149). -/
def indirectHighAddress (pageWrap : Bool) (ptr : Word) : Word :=
  BitVec.ofNat 16 (if pageWrap then ptr.toNat / 256 * 256 + (ptr.toNat + 1) % 256 else ptr.toNat + 1)

/-- The mnemonics that write PC themselves (R142). -/
def pcWriters : List Mnemonic := [.jmp, .jsr, .rts, .rti, .brk, .bcc, .bcs, .beq, .bne, .bmi, .bpl, .bvc, .bvs]

/-- An instruction that calls no interceptor handler (R302). -/
def NotIntercepted (i : Instr) (s : State) : Prop := ∀ w : Word, i = .jsr w → w ∉ s.cfg.interceptors

end Sys2Proof.Claims

open Sys2Proof Sys2Proof.Machine Sys2Proof.Claims

/-! ### Encoding (30_encoding.md) -/

/-- Words of every family, written out from R108, decode to the instructions they stand for. -/
def Obligations.WordsDecodeAsTheMapSays : Prop :=
  decodeTableWord 16 0x70B5 = some (.ldaZpX 0x70#8) ∧ decodeTableWord 24 0xFE4D8D = some (.staAbs 0xFE4D#16) ∧
  decodeTableWord 8 0x68 = some .pla ∧ decodeTableWord 16 0xD369 = some (.adcImm 0xD3#8) ∧
  decodeTableWord 24 0x1230DE = some (.decAbsX 0x1230#16) ∧ decodeTableWord 16 0x7024 = some (.bitZp 0x70#8) ∧
  decodeTableWord 8 0x6A = some .rorAcc ∧ decodeTableWord 24 0x02066C = some (.jmpInd 0x0206#16) ∧
  decodeTableWord 16 0xF9D0 = some (.bne 0xF9#8) ∧ decodeTableWord 8 0x58 = some .cli ∧
  decodeTableWord 8 0x00 = some .brk ∧ decodeTableWord 8 0x02 = none

/-- Decoding an encoded instruction, whatever follows it, gives it and what follows back (R101, R103). -/
def Obligations.DecodeInvertsEncode : Prop :=
  ∀ (i : Instr) (rest : List Byte), decode (encode i ++ rest) = .ok (i, rest)

/-- Bytes that decode are the encoding of the instruction they decode to, followed by the rest: each word has one meaning
(R101, R106). -/
def Obligations.EncodeInvertsDecode : Prop :=
  ∀ (bytes : List Byte) (i : Instr) (rest : List Byte), decode bytes = .ok (i, rest) → encode i ++ rest = bytes

/-- The decoder's pairs are those of the by-mnemonic table R109, each pair has exactly one opcode byte, and the first byte
alone tells the length (R100, R106, R107); a byte is invalid exactly when no instruction has it, and decoding then names
it (R105, R112). -/
def Obligations.OneOpcodeBytePerPair : Prop :=
  (∀ (op : Byte) (m : Mnemonic) (md : Mode), decodeOpcode op = some (m, md) → md ∈ m.modes) ∧
  (∀ (m : Mnemonic) (md : Mode), md ∈ m.modes → ∃ op : Byte, decodeOpcode op = some (m, md) ∧
    ∀ op' : Byte, decodeOpcode op' = some (m, md) → op' = op) ∧
  (∀ i : Instr, decodeOpcode i.opcode = some (i.mnemonic, i.operand.mode) ∧
    (encode i).length = 1 + i.operand.mode.operandLength ∧ i.wellFormed = true) ∧
  (∀ (op : Byte) (rest : List Byte), (isValid op = false ↔ ∀ i : Instr, i.opcode ≠ op) ∧
    (isValid op = false ↔ decode (op :: rest) = .error (.invalidOpcode op)))

/-! ### Memory, bus and stack (20_memory.md) -/

/-- R63, R76: a hooked write stores the byte in its cell, at a VIA register too, and alters no other cell and no register;
read back through the bus, with no read hook on the address, it is the byte written. That the memory stays in canonical
form is the model's own clause (log 1). -/
def Obligations.HookedWriteStoresItsCellOnly : Prop :=
  ∀ (s : State) (a c : Word) (v : Byte), s.mem.wf = true →
    (s.memWrite a v).rawRead c = (if c = a then v else s.rawRead c) ∧
    (s.memWrite a v).mem.wf = true ∧ (s.memWrite a v).pc = s.pc ∧ (s.memWrite a v).p = s.p ∧
    (∀ r : Reg, (s.memWrite a v).reg r = s.reg r) ∧
    (a ∉ s.cfg.readRegisters → ((s.memWrite a v).memRead a).1 = v)

/-- R74, R434: a hooked read changes nothing but the model's counter of free values, and where the fallback is not a draw
two reads of one address return the same byte. -/
def Obligations.ReadsAreIdempotent : Prop :=
  ∀ (s : State) (a : Word), (∃ d : Nat, (s.memRead a).2 = { s with draws := d }) ∧
    (s.cfg.kbdFallback = .column → ((s.memRead a).2.memRead a).1 = (s.memRead a).1 ∧ (s.memRead a).2 = s)

/-- R70, R71, R73: a push writes the cell at 0x0100 + S alone and decrements S mod 2^8; a pull then returns the byte and
restores S; pushing with S = 0 leaves S = 0xFF. -/
def Obligations.PullUndoesPush : Prop :=
  ∀ (s : State) (v : Byte), s.mem.wf = true →
    (s.push v).rawRead (stackCell s.sp) = v ∧ CellsKept [stackCell s.sp] s (s.push v) ∧
    ((s.push v).sp.toNat = (s.sp.toNat + 255) % 256) ∧ (s.push v).pull.1 = v ∧ (s.push v).pull.2.sp = s.sp ∧
    s.pull.1 = s.rawRead (stackCell (s.sp + 1)) ∧ s.pull.2.sp.toNat = (s.sp.toNat + 1) % 256

/-! ### The VIA (60_exceptions.md, section 4) -/

/-- R433: the IFR read, bit by bit: a source bit is the pending bit, and SRC_KBD's is also set, with autoscan off, by the
column fallback, which is the column test under `kbdFallback = Column` and a free value under Draw (for every value of it,
at the index the read uses and advances; log 10); bit 7 is set iff some bit below it is set and enabled. -/
def Obligations.IfrReadComposesPendingBits : Prop :=
  ∀ s : State, s.viaHooked →
    let v := (s.memRead s.cfg.viaIfr).1
    let column := s.cfg.kbdFallback = .column ∧ ∃ k : BitVec 7, s.lastKey = some k ∧
      k.toNat % 16 = s.lastProbe.toNat % 16
    let drawn := s.cfg.kbdFallback = .draw ∧ Config.freeBit s.draws = true
    (∀ j : Nat, j < 7 → (v.getLsbD j = true ↔ s.pending.getLsbD j = true ∨
      j = s.cfg.srcKbd.val ∧ s.autoscan = false ∧ (column ∨ drawn))) ∧
    (v.getLsbD 7 = true ↔ ∃ j : Nat, j < 7 ∧ v.getLsbD j = true ∧ s.enable.getLsbD j = true) ∧
    (s.memRead s.cfg.viaIfr).2 =
      { s with draws := if s.autoscan = false ∧ s.cfg.kbdFallback = .draw then s.draws + 1 else s.draws }

/-- R435: an IFR write with bit 7 clear clears exactly the written source bits in pending and notified; with bit 7 set it
changes neither. -/
def Obligations.IfrWriteAcknowledges : Prop :=
  ∀ (s : State) (v : Byte), s.viaHooked → s.viaApart →
    let t := s.memWrite s.cfg.viaIfr v
    (∀ j : Nat, j < 7 → t.pending.getLsbD j = (s.pending.getLsbD j && (v.getLsbD 7 || !v.getLsbD j)) ∧
      t.notified.getLsbD j = (s.notified.getLsbD j && (v.getLsbD 7 || !v.getLsbD j))) ∧
    t.enable = s.enable ∧ t.autoscan = s.autoscan ∧ t.ddra = s.ddra ∧ t.lastProbe = s.lastProbe ∧
    t.lastKey = s.lastKey

/-- R436, R437: an IER write enables or disables the named sources and changes no pending or notified bit; an IER read is
bit 7 set and the enabled sources. -/
def Obligations.IerSelectsSources : Prop :=
  ∀ (s : State) (v : Byte), s.viaHooked → s.viaApart →
    let t := s.memWrite s.cfg.viaIer v
    (∀ j : Nat, j < 7 → t.enable.getLsbD j = (if v.getLsbD j then v.getLsbD 7 else s.enable.getLsbD j)) ∧
    t.pending = s.pending ∧ t.notified = s.notified ∧ t.autoscan = s.autoscan ∧ t.ddra = s.ddra ∧
    t.lastProbe = s.lastProbe ∧ (s.memRead s.cfg.viaIer).1.getLsbD 7 = true ∧
    ∀ j : Nat, j < 7 → (s.memRead s.cfg.viaIer).1.getLsbD j = s.enable.getLsbD j

/-- R440 to R442: an ORB write's low nibble switches autoscan on or off by the two codes, any other leaves it; a DDRA write
stores ddra; a KBD write stores lastProbe; none changes another VIA field. -/
def Obligations.OrbDdraKbdWrites : Prop :=
  ∀ (s : State) (v : Byte), s.viaHooked → s.viaApart →
    s.memWrite s.cfg.viaOrb v = { s.rawWrite s.cfg.viaOrb v with
      autoscan := if v.toNat % 16 = s.cfg.autoscanOnCode.toNat then true
        else if v.toNat % 16 = s.cfg.autoscanOffCode.toNat then false else s.autoscan } ∧
    s.memWrite s.cfg.viaDdra v = { s.rawWrite s.cfg.viaDdra v with ddra := v } ∧
    s.memWrite s.cfg.viaKbd v = { s.rawWrite s.cfg.viaKbd v with lastProbe := v }

/-- R443: a KBD read with autoscan off is the probe: KEY_PRESSED_BIT is set iff the last key's column is the probe's, and
every other bit is the last probe's; with autoscan on it is the stored cell. R443 writes the masks of the default bit 7;
what a probe echoes for another bit is the model's choice (log 11). -/
def Obligations.KbdReadProbesColumn : Prop :=
  ∀ s : State, s.viaHooked → s.viaApart →
    let v := (s.memRead s.cfg.viaKbd).1
    (s.autoscan = false → (∀ j : Nat, j < 8 → j ≠ s.cfg.keyPressedBit.val → v.getLsbD j = s.lastProbe.getLsbD j) ∧
      (v.getLsbD s.cfg.keyPressedBit.val = true ↔
        ∃ k : BitVec 7, s.lastKey = some k ∧ k.toNat % 16 = s.lastProbe.toNat % 16)) ∧
    (s.autoscan = true → v = s.rawRead s.cfg.viaKbd)

/-- R444, R74: at every address but the VIA's registers a read is the cell and a write is the cell alone, the other VIA
addresses under R8's defaults among them; ORB and DDRA read as their cells (R431). -/
def Obligations.OtherAddressesArePlainCells : Prop :=
  ∀ (s : State) (a : Word) (v : Byte),
    (a ∉ s.cfg.readRegisters → s.memRead a = (s.rawRead a, s)) ∧
    (a ∉ s.cfg.viaRegisters → s.memWrite a v = s.rawWrite a v) ∧
    (s.cfg.viaRegisters = Config.default.viaRegisters →
      a = 0xFE41#16 ∨ a = 0xFE42#16 ∨ 0xFE44 ≤ a.toNat ∧ a.toNat ≤ 0xFE4C →
      s.memRead a = (s.rawRead a, s) ∧ s.memWrite a v = s.rawWrite a v) ∧
    (s.viaApart → s.memRead s.cfg.viaOrb = (s.rawRead s.cfg.viaOrb, s) ∧
      s.memRead s.cfg.viaDdra = (s.rawRead s.cfg.viaDdra, s))

/-- R452, R445: a firing sets its source's bit in pending and notified iff the source is enabled and touches no other bit;
a key event sets lastKey and raises no bit; neither touches a register or a cell. -/
def Obligations.AgentStepsWriteOnlyTheirFields : Prop :=
  ∀ (s : State) (src : Source) (k : BitVec 7),
    let bit := (match src with | .timer => s.cfg.srcTimer | .vsync => s.cfg.srcVsync).val
    (∀ j : Nat, j < 7 → (s.fire src).pending.getLsbD j =
        (s.pending.getLsbD j || (decide (j = bit) && s.enable.getLsbD j)) ∧
      (s.fire src).notified.getLsbD j =
        (s.notified.getLsbD j || (decide (j = bit) && s.enable.getLsbD j))) ∧
    (s.fire src) = { s with pending := (s.fire src).pending, notified := (s.fire src).notified } ∧
    s.agentStep (.keyDown k) = { s with lastKey := some k } ∧ s.agentStep .keyUp = { s with lastKey := none }

/-! ### Addressing (40_cycle_and_addressing.md) -/

/-- R145 to R147, R151: the effective addresses that need no pointer, in exact arithmetic: page-0 indexing wraps mod 2^8,
absolute indexing and branch targets wrap mod 2^16. No state changes. -/
def Obligations.DirectEffectiveAddresses : Prop :=
  ∀ (s : State) (op b : Byte) (w : Word),
    (∃ ea : Word, effectiveAddress op (.zeroPage b) s = .ok (ea, s) ∧ ea.toNat = b.toNat) ∧
    (∃ ea : Word, effectiveAddress op (.zeroPageX b) s = .ok (ea, s) ∧ ea.toNat = (b.toNat + s.x.toNat) % 256) ∧
    (∃ ea : Word, effectiveAddress op (.zeroPageY b) s = .ok (ea, s) ∧ ea.toNat = (b.toNat + s.y.toNat) % 256) ∧
    (∃ ea : Word, effectiveAddress op (.absolute w) s = .ok (ea, s) ∧ ea = w) ∧
    (∃ ea : Word, effectiveAddress op (.absoluteX w) s = .ok (ea, s) ∧ ea.toNat = (w.toNat + s.x.toNat) % 65536) ∧
    (∃ ea : Word, effectiveAddress op (.absoluteY w) s = .ok (ea, s) ∧ ea.toNat = (w.toNat + s.y.toNat) % 65536) ∧
    (∃ ea : Word, effectiveAddress op (.relative b) s = .ok (ea, s) ∧
      (ea.toNat : Int) = (s.pc.toNat + 2 + b.toInt) % 65536)

/-- R148: the zero-page pointer modes: the pointer is the word of two MemReads in page 0, low byte first, the high byte's
address wrapping there: of the two cells where no read hook claims them; Y is added to the pointer mod 2^16. -/
def Obligations.PointerEffectiveAddresses : Prop :=
  ∀ (s : State) (op b : Byte),
    let address := fun n : Nat => BitVec.ofNat 16 (n % 256)
    let cells := fun n : Nat => 256 * (s.rawRead (address (n + 1))).toNat + (s.rawRead (address n)).toNat
    let pointer := fun n : Nat =>
      let l := s.interleave.memRead (address n)
      let h := l.2.interleave.memRead (address (n + 1))
      (256 * h.1.toNat + l.1.toNat, h.2)
    let plain := fun n : Nat => address n ∉ s.cfg.readRegisters ∧ address (n + 1) ∉ s.cfg.readRegisters
    (∀ n : Nat, plain n → pointer n = (cells n, s.points 2)) ∧
    (∃ (ea : Word) (t : State), effectiveAddress op (.indexedIndirectX b) s = .ok (ea, t) ∧
      (ea.toNat, t) = pointer (b.toNat + s.x.toNat)) ∧
    (∃ (ea : Word) (t : State), effectiveAddress op (.indirectIndexedY b) s = .ok (ea, t) ∧
      (ea.toNat, t) = (((pointer b.toNat).1 + s.y.toNat) % 65536, (pointer b.toNat).2))

/-- R150: M is the byte after the opcode for Immediate, and else what one MemRead at the effective address reads: the cell
wherever no read hook claims the address. -/
def Obligations.OperandByteIsReadOnce : Prop :=
  ∀ (s : State) (op b : Byte) (o : Operand), operandByte op (.immediate b) s = .ok (b, s) ∧
    (o.mode ∈ [Mode.zeroPage, .zeroPageX, .zeroPageY, .absolute, .absoluteX, .absoluteY, .indexedIndirectX,
        .indirectIndexedY] →
      ∃ (ea : Word) (s1 s2 : State) (m : Byte), effectiveAddress op o s = .ok (ea, s1) ∧
        operandByte op o s = .ok (m, s2) ∧ (m, s2) = s1.interleave.memRead ea ∧
        (ea ∉ s.cfg.readRegisters → m = s.rawRead ea))

/-! ### Load, store and transfer (41_load_store_transfer.md) -/

/-- R170 to R172: LDA, LDX, LDY in every mode load M, set Z and N from it and change nothing else. -/
def Obligations.LoadsWriteRegisterAndZN : Prop :=
  ∀ (s : State) (b : Byte) (w : Word),
    (Rows (ldaForms b w) [0xA9, 0xA5, 0xB5, 0xAD, 0xBD, 0xB9, 0xA1, 0xB1] (eightOperands b w) ∧
      ∀ i ∈ ldaForms b w, ReadsThen [.a] [.z, .n] (fun m _ t => t.a = m ∧ ZN m t) i s) ∧
    (Rows (ldxForms b w) [0xA2, 0xA6, 0xB6, 0xAE, 0xBE]
        [.immediate b, .zeroPage b, .zeroPageY b, .absolute w, .absoluteY w] ∧
      ∀ i ∈ ldxForms b w, ReadsThen [.x] [.z, .n] (fun m _ t => t.x = m ∧ ZN m t) i s) ∧
    (Rows (ldyForms b w) [0xA0, 0xA4, 0xB4, 0xAC, 0xBC]
        [.immediate b, .zeroPage b, .zeroPageX b, .absolute w, .absoluteX w] ∧
      ∀ i ∈ ldyForms b w, ReadsThen [.y] [.z, .n] (fun m _ t => t.y = m ∧ ZN m t) i s)

/-- R173 to R175: STA, STX, STY in every mode store their register at the effective address through the write hooks and
change no register and no flag; STA has no Immediate form. -/
def Obligations.StoresWriteOneCell : Prop :=
  ∀ (s : State) (b : Byte) (w : Word), s.mem.wf = true → isValid 0x89#8 = false ∧
    (Rows (staForms b w) [0x85, 0x95, 0x8D, 0x9D, 0x99, 0x81, 0x91] (eightOperands b w).tail ∧
      ∀ i ∈ staForms b w, StoresByte s.a i s) ∧
    (Rows (stxForms b w) [0x86, 0x96, 0x8E] [.zeroPage b, .zeroPageY b, .absolute w] ∧
      ∀ i ∈ stxForms b w, StoresByte s.x i s) ∧
    (Rows (styForms b w) [0x84, 0x94, 0x8C] [.zeroPage b, .zeroPageX b, .absolute w] ∧
      ∀ i ∈ styForms b w, StoresByte s.y i s)

/-- R176 to R181: the transfers; all but TXS set Z and N from the byte moved; TXS sets no flag. No other field changes. -/
def Obligations.TransfersMoveOneRegister : Prop :=
  ∀ s : State,
    Rows [.tax, .tay, .txa, .tya, .tsx, .txs] [0xAA, 0xA8, 0x8A, 0x98, 0xBA, 0x9A] (List.replicate 6 .implied) ∧
    (∀ q ∈ [(Instr.tax, Reg.a, Reg.x), (.tay, .a, .y), (.txa, .x, .a), (.tya, .y, .a), (.tsx, .s, .x)],
      ∃ t : State, exec q.1 s = .next t ∧ t.reg q.2.2 = s.reg q.2.1 ∧ ZN (s.reg q.2.1) t ∧ t.pc = s.pc + 1 ∧
        Frame [q.2.2] [.z, .n] 0 s t ∧ ViaKept 0 s t ∧ CellsKept [] s t) ∧
    exec .txs s = .next { s with sp := s.x, pc := s.pc + 1 }

/-! ### Stack instructions (42_stack.md) -/

/-- R200 to R203: PHA pushes A, PHP pushes P with bits 4 and 5 set; PLA pulls A and sets Z and N; PLP pulls all eight bits
of P, and the poll after it goes by the pulled I. Nothing else changes but S. -/
def Obligations.StackInstructionsMoveOneByte : Prop :=
  ∀ s : State, s.mem.wf = true →
    Rows [.pha, .php, .pla, .plp] [0x48, 0x08, 0x68, 0x28] (List.replicate 4 .implied) ∧
    (∀ q ∈ [(Instr.pha, s.a), (.php, s.p ||| 0x30#8)],
      ∃ t : State, exec q.1 s = .next t ∧ t.rawRead (stackCell s.sp) = q.2 ∧ t.sp = s.sp - 1 ∧ t.pc = s.pc + 1 ∧
        Frame [.s] [] 1 s t ∧ ViaKept 1 s t ∧ CellsKept [stackCell s.sp] s t) ∧
    (∃ t : State, exec .pla s = .next t ∧ t.a = s.rawRead (stackCell (s.sp + 1)) ∧ ZN t.a t ∧ t.sp = s.sp + 1 ∧
      t.pc = s.pc + 1 ∧ Frame [.a, .s] [.z, .n] 1 s t ∧ ViaKept 1 s t ∧ CellsKept [] s t) ∧
    (∃ t : State, exec .plp s = .next t ∧ t.p = s.rawRead (stackCell (s.sp + 1)) ∧ t.sp = s.sp + 1 ∧
      t.pc = s.pc + 1 ∧ Frame [.s] [.c, .z, .i, .d, .b, .r, .v, .n] 1 s t ∧ ViaKept 1 s t ∧ CellsKept [] s t ∧
      t.interleave.poll =
        if t.flag .i = false ∧ t.interleave.notified ≠ 0 then t.interleave.interruptEntry else t.interleave)

/-! ### Arithmetic (43_arithmetic.md) -/

/-- R220, R222, R223: ADC in every mode: with D = 1 under Refuse, the refusal; else the exact sum of A, M and C mod 2^8;
C its carry; V its signed overflow; Z and N of the result. -/
def Obligations.AdcAddsWithCarry : Prop :=
  ∀ (s : State) (b : Byte) (w : Word),
    Rows (adcForms b w) [0x69, 0x65, 0x75, 0x6D, 0x7D, 0x79, 0x61, 0x71] (eightOperands b w) ∧
    (s.flag .d = true → s.cfg.decimalMode = .refuse →
      ∀ i ∈ adcForms b w, exec i s = .refused (.decimalArithmetic s.pc i.opcode)) ∧
    ((s.flag .d = false ∨ s.cfg.decimalMode = .binary) → ∀ i ∈ adcForms b w, ReadsThen [.a] [.c, .z, .v, .n] (fun m s t =>
      t.a.toNat = (s.a.toNat + m.toNat + (s.flag .c).toNat) % 256 ∧
      t.flag .c = decide (255 < s.a.toNat + m.toNat + (s.flag .c).toNat) ∧
      t.flag .v = decide (s.a.toInt + m.toInt + (s.flag .c).toNat < -128 ∨
        127 < s.a.toInt + m.toInt + (s.flag .c).toNat) ∧ ZN t.a t) i s)

/-- R221, R222, R224: SBC in every mode: with D = 1 under Refuse, the refusal; else the exact difference A - M - (1 - C)
mod 2^8; C iff no borrow occurred; V its signed overflow; Z and N of the result. -/
def Obligations.SbcSubtractsWithBorrow : Prop :=
  ∀ (s : State) (b : Byte) (w : Word),
    Rows (sbcForms b w) [0xE9, 0xE5, 0xF5, 0xED, 0xFD, 0xF9, 0xE1, 0xF1] (eightOperands b w) ∧
    (s.flag .d = true → s.cfg.decimalMode = .refuse →
      ∀ i ∈ sbcForms b w, exec i s = .refused (.decimalArithmetic s.pc i.opcode)) ∧
    ((s.flag .d = false ∨ s.cfg.decimalMode = .binary) → ∀ i ∈ sbcForms b w, ReadsThen [.a] [.c, .z, .v, .n] (fun m s t =>
      (t.a.toNat : Int) = ((s.a.toNat : Int) - m.toNat - (1 - (s.flag .c).toNat)) % 256 ∧
      t.flag .c = decide (0 ≤ (s.a.toNat : Int) - m.toNat - (1 - (s.flag .c).toNat)) ∧
      t.flag .v = decide (s.a.toInt - m.toInt - (1 - (s.flag .c).toNat) < -128 ∨
        127 < s.a.toInt - m.toInt - (1 - (s.flag .c).toNat)) ∧ ZN t.a t) i s)

/-- R403, R407: the only refusal is ADC's or SBC's with D = 1 under decimalMode = Refuse, naming PC and the opcode byte. -/
def Obligations.OnlyDecimalArithmeticIsRefused : Prop :=
  ∀ (i : Instr) (s : State) (r : Refusal), exec i s = .refused r →
    r = .decimalArithmetic s.pc i.opcode ∧ i.mnemonic ∈ [Mnemonic.adc, .sbc] ∧ s.flag .d = true ∧
      s.cfg.decimalMode = .refuse

/-- R225 to R228: CMP, CPX, CPY in every mode: C iff the register is at least M, Z iff equal, N bit 7 of the difference;
no register written, V and D without effect. -/
def Obligations.ComparesSetFlagsOnly : Prop :=
  ∀ (s : State) (b : Byte) (w : Word),
    let law := fun (r : Reg) (m : Byte) (s t : State) => t.flag .c = decide (m.toNat ≤ (s.reg r).toNat) ∧
      t.flag .z = decide (s.reg r = m) ∧ t.flag .n = (s.reg r - m).getLsbD 7
    (Rows (cmpForms b w) [0xC9, 0xC5, 0xD5, 0xCD, 0xDD, 0xD9, 0xC1, 0xD1] (eightOperands b w) ∧
      ∀ i ∈ cmpForms b w, ReadsThen [] [.c, .z, .n] (law .a) i s) ∧
    (Rows (cpxForms b w) [0xE0, 0xE4, 0xEC] [.immediate b, .zeroPage b, .absolute w] ∧
      ∀ i ∈ cpxForms b w, ReadsThen [] [.c, .z, .n] (law .x) i s) ∧
    (Rows (cpyForms b w) [0xC0, 0xC4, 0xCC] [.immediate b, .zeroPage b, .absolute w] ∧
      ∀ i ∈ cpyForms b w, ReadsThen [] [.c, .z, .n] (law .y) i s)

/-- R229, R232: INC and DEC in every mode write back M plus or minus one mod 2^8 and set Z and N from it. -/
def Obligations.IncDecModifyMemory : Prop :=
  ∀ (s : State) (b : Byte) (w : Word), s.mem.wf = true →
    (Rows (incForms b w) [0xE6, 0xF6, 0xEE, 0xFE] (memoryOperands b w) ∧ ∀ i ∈ incForms b w,
      ModifiesByte [.z, .n] (fun m _ => BitVec.ofNat 8 (m.toNat + 1)) (fun _ r t => ZN r t) i s) ∧
    (Rows (decForms b w) [0xC6, 0xD6, 0xCE, 0xDE] (memoryOperands b w) ∧ ∀ i ∈ decForms b w,
      ModifiesByte [.z, .n] (fun m _ => BitVec.ofNat 8 (m.toNat + 255)) (fun _ r t => ZN r t) i s)

/-- R230, R231, R233, R234: INX, INY, DEX, DEY step their register mod 2^8 and set Z and N from it. -/
def Obligations.IndexStepsWrap : Prop :=
  ∀ s : State, Rows [.inx, .iny, .dex, .dey] [0xE8, 0xC8, 0xCA, 0x88] (List.replicate 4 .implied) ∧
    ∀ q ∈ [(Instr.inx, Reg.x, 1), (.iny, .y, 1), (.dex, .x, 255), (.dey, .y, 255)],
    ∃ t : State, exec q.1 s = .next t ∧ (t.reg q.2.1).toNat = ((s.reg q.2.1).toNat + q.2.2) % 256 ∧
      ZN (t.reg q.2.1) t ∧ t.pc = s.pc + 1 ∧ Frame [q.2.1] [.z, .n] 0 s t ∧ ViaKept 0 s t ∧ CellsKept [] s t

/-! ### Logic, shifts and rotates (44_logic_shift.md) -/

/-- R260 to R262: AND, ORA, EOR in every mode, bit by bit, with Z and N of the result. -/
def Obligations.LogicalOperationsBitwise : Prop :=
  ∀ (s : State) (b : Byte) (w : Word),
    let law := fun (f : Bool → Bool → Bool) (m : Byte) (s t : State) =>
      (∀ j : Nat, j < 8 → t.a.getLsbD j = f (s.a.getLsbD j) (m.getLsbD j)) ∧ ZN t.a t
    (Rows (andForms b w) [0x29, 0x25, 0x35, 0x2D, 0x3D, 0x39, 0x21, 0x31] (eightOperands b w) ∧
      ∀ i ∈ andForms b w, ReadsThen [.a] [.z, .n] (law and) i s) ∧
    (Rows (oraForms b w) [0x09, 0x05, 0x15, 0x0D, 0x1D, 0x19, 0x01, 0x11] (eightOperands b w) ∧
      ∀ i ∈ oraForms b w, ReadsThen [.a] [.z, .n] (law or) i s) ∧
    (Rows (eorForms b w) [0x49, 0x45, 0x55, 0x4D, 0x5D, 0x59, 0x41, 0x51] (eightOperands b w) ∧
      ∀ i ∈ eorForms b w, ReadsThen [.a] [.z, .n] (law xor) i s)

/-- R263: BIT in both modes: Z from A and M, N and V from bits 7 and 6 of M; no register written; no Immediate form. -/
def Obligations.BitTestsOperand : Prop :=
  ∀ (s : State) (b : Byte) (w : Word), isValid 0x89#8 = false ∧
    Rows (bitForms b w) [0x24, 0x2C] [.zeroPage b, .absolute w] ∧
    ∀ i ∈ bitForms b w, ReadsThen [] [.z, .n, .v] (fun m s t => t.flag .z = decide (s.a &&& m = 0) ∧
      t.flag .n = m.getLsbD 7 ∧ t.flag .v = m.getLsbD 6) i s

/-- R152, R264 to R268: the shifts and rotates of A, and of memory with one read and one write at the effective address:
the result in exact arithmetic, C the bit shifted out, Z and N of the result. -/
def Obligations.ShiftsAndRotates : Prop :=
  ∀ (s : State) (b : Byte) (w : Word), s.mem.wf = true →
    Rows [.aslAcc, .lsrAcc, .rolAcc, .rorAcc] [0x0A, 0x4A, 0x2A, 0x6A] (List.replicate 4 .accumulator) ∧
    (∀ q ∈ [(Instr.aslAcc, s.a.toNat * 2, s.a.getLsbD 7), (.lsrAcc, s.a.toNat / 2, s.a.getLsbD 0),
        (.rolAcc, s.a.toNat * 2 + (s.flag .c).toNat, s.a.getLsbD 7),
        (.rorAcc, s.a.toNat / 2 + 128 * (s.flag .c).toNat, s.a.getLsbD 0)],
      ∃ t : State, exec q.1 s = .next t ∧ t.a.toNat = q.2.1 % 256 ∧ t.flag .c = q.2.2 ∧ ZN t.a t ∧ t.pc = s.pc + 1 ∧
        Frame [.a] [.c, .z, .n] 0 s t ∧ ViaKept 0 s t ∧ CellsKept [] s t) ∧
    (Rows (aslForms b w) [0x06, 0x16, 0x0E, 0x1E] (memoryOperands b w) ∧ ∀ i ∈ aslForms b w, ModifiesByte [.c, .z, .n]
      (fun m _ => BitVec.ofNat 8 (m.toNat * 2)) (fun m r t => t.flag .c = m.getLsbD 7 ∧ ZN r t) i s) ∧
    (Rows (lsrForms b w) [0x46, 0x56, 0x4E, 0x5E] (memoryOperands b w) ∧ ∀ i ∈ lsrForms b w, ModifiesByte [.c, .z, .n]
      (fun m _ => BitVec.ofNat 8 (m.toNat / 2)) (fun m r t => t.flag .c = m.getLsbD 0 ∧ ZN r t) i s) ∧
    (Rows (rolForms b w) [0x26, 0x36, 0x2E, 0x3E] (memoryOperands b w) ∧ ∀ i ∈ rolForms b w, ModifiesByte [.c, .z, .n]
      (fun m s => BitVec.ofNat 8 (m.toNat * 2 + (s.flag .c).toNat))
      (fun m r t => t.flag .c = m.getLsbD 7 ∧ ZN r t) i s) ∧
    (Rows (rorForms b w) [0x66, 0x76, 0x6E, 0x7E] (memoryOperands b w) ∧ ∀ i ∈ rorForms b w, ModifiesByte [.c, .z, .n]
      (fun m s => BitVec.ofNat 8 (m.toNat / 2 + 128 * (s.flag .c).toNat))
      (fun m r t => t.flag .c = m.getLsbD 0 ∧ ZN r t) i s)

/-! ### Control (45_control.md) -/

/-- R300, R149: JMP absolute goes to its operand; JMP indirect to the word of two MemReads, low byte first, the high byte's
address within the pointer's page where jmpIndirectPageWrap is set: the word of those two cells where no read hook claims
either address. Nothing else changes. -/
def Obligations.JumpsGoToTheirTarget : Prop :=
  ∀ (s : State) (w : Word), Rows [.jmpAbs w, .jmpInd w] [0x4C, 0x6C] [.absolute w, .indirect w] ∧
    exec (.jmpAbs w) s = .next { s with pc := w } ∧
    ∃ t : State, exec (.jmpInd w) s = .next t ∧ Frame [] [] 2 s t ∧ ViaKept 2 s t ∧ CellsKept [] s t ∧
      (let l := s.interleave.memRead w
        let h := l.2.interleave.memRead (indirectHighAddress s.cfg.jmpIndirectPageWrap w)
        t.pc.toNat = 256 * h.1.toNat + l.1.toNat) ∧
      ((∀ a ∈ [w, indirectHighAddress s.cfg.jmpIndirectPageWrap w], a ∉ s.cfg.readRegisters) →
        t.pc.toNat = 256 * (s.rawRead (indirectHighAddress s.cfg.jmpIndirectPageWrap w)).toNat + (s.rawRead w).toNat)

/-- R301, R72: JSR to a target with no registered handler pushes pc0 + 2, high byte first, and goes to the target. -/
def Obligations.JsrPushesReturnAddress : Prop :=
  ∀ (s : State) (w : Word), s.mem.wf = true → w ∉ s.cfg.interceptors →
    Rows [.jsr w] [0x20] [.absolute w] ∧
    ∃ t : State, exec (.jsr w) s = .next t ∧ t.pc = w ∧ t.sp = s.sp - 2 ∧
      (t.rawRead (stackCell s.sp)).toNat = (s.pc.toNat + 2) % 65536 / 256 ∧
      (t.rawRead (stackCell (s.sp - 1))).toNat = (s.pc.toNat + 2) % 256 ∧
      Frame [.s] [] 2 s t ∧ ViaKept 2 s t ∧ CellsKept [stackCell s.sp, stackCell (s.sp - 1)] s t

/-- R302, R303: JSR to a registered vector runs the handler as one host step behind one interleaving point: its registers
and its hooked writes take effect; a handled call pushes nothing and PC is pc0 + 3; a declined call runs the normal body
on the state the handler left, and nothing else of that state changes. For every outcome of the handler, the script's or
a free one (log 8). -/
def Obligations.InterceptedCallRunsHandler : Prop :=
  ∀ (s : State) (w : Word), w ∈ s.cfg.interceptors →
    let e := (s.points 1).nextHandler.1
    let u := e.writes.foldl (fun v c => v.memWrite c.1 c.2) (s.points 1).nextHandler.2
    let left := { u with a := e.a, x := e.x, y := e.y, sp := e.sp, p := e.p }
    (e.handled = true → exec (.jsr w) s = .next { left with pc := s.pc + 3 }) ∧
    (e.handled = false → ∃ t : State, exec (.jsr w) s = .next t ∧ t.pc = w ∧ t.sp = e.sp - 2 ∧
      Frame [.s] [] 2 left t ∧ ViaKept 2 left t ∧ (s.mem.wf = true →
        t.rawRead (stackCell e.sp) = hi8 (s.pc + 2) ∧ t.rawRead (stackCell (e.sp - 1)) = lo8 (s.pc + 2) ∧
        CellsKept [stackCell e.sp, stackCell (e.sp - 1)] left t)) ∧
    (∀ (f : HandlerEffect) (rest : List HandlerEffect), s.handlerScript = f :: rest →
      e = f ∧ left.handlerScript = rest)

/-- R304: RTS pulls a word low byte first and goes to it plus one. -/
def Obligations.RtsReturnsPastTheCall : Prop :=
  ∀ s : State, Rows [.rts] [0x60] [.implied] ∧ ∃ t : State, exec .rts s = .next t ∧ t.sp = s.sp + 2 ∧
    t.pc.toNat = (256 * (s.rawRead (stackCell (s.sp + 2))).toNat + (s.rawRead (stackCell (s.sp + 1))).toNat + 1) % 65536 ∧
    Frame [.s] [] 2 s t ∧ ViaKept 2 s t ∧ CellsKept [] s t

/-- R314: RTS after JSR, with no instruction between and whatever the agents do, resumes after the call with S restored. -/
def Obligations.RtsUndoesJsr : Prop :=
  ∀ (s t u : State) (w : Word), s.mem.wf = true → w ∉ s.cfg.interceptors → exec (.jsr w) s = .next t →
    exec .rts t = .next u → u.pc = s.pc + 3 ∧ u.sp = s.sp ∧ u.a = s.a ∧ u.x = s.x ∧ u.y = s.y ∧ u.p = s.p

/-- R305 to R313: each branch tests its flag; taken, PC is pc0 + 2 plus the signed displacement mod 2^16, else pc0 + 2;
nothing else changes. -/
def Obligations.BranchesTestOneFlag : Prop :=
  ∀ (s : State) (b : Byte),
    Rows [.bcc b, .bcs b, .beq b, .bne b, .bmi b, .bpl b, .bvc b, .bvs b]
      [0x90, 0xB0, 0xF0, 0xD0, 0x30, 0x10, 0x50, 0x70] (List.replicate 8 (.relative b)) ∧
    ∀ q ∈ [(Instr.bcc b, Flag.c, false), (.bcs b, .c, true), (.bne b, .z, false),
      (.beq b, .z, true), (.bpl b, .n, false), (.bmi b, .n, true), (.bvc b, .v, false), (.bvs b, .v, true)],
    ∃ t : State, exec q.1 s = .next t ∧ t = { s with pc := t.pc } ∧
      (t.pc.toNat : Int) = (s.pc.toNat + 2 + (if s.flag q.2.1 = q.2.2 then b.toInt else 0)) % 65536

/-! ### Flags and system (46_flags_system.md) -/

/-- R340 to R347: each flag instruction sets its one bit of P, changes nothing else but PC, and is idempotent on P; the poll
after SEI takes no interrupt and the poll after CLI takes a notified one; NOP changes PC alone, and the undocumented NOP
encodings are invalid. -/
def Obligations.FlagInstructionsSetOneBit : Prop :=
  ∀ s : State,
    Rows [.clc, .sec, .cli, .sei, .cld, .sed, .clv, .nop] [0x18, 0x38, 0x58, 0x78, 0xD8, 0xF8, 0xB8, 0xEA]
      (List.replicate 8 .implied) ∧
    exec .nop s = .next { s with pc := s.pc + 1 } ∧ isValid 0x1A#8 = false ∧ isValid 0x80#8 = false ∧
    (∃ t : State, exec .sei s = .next t ∧ t.interleave.poll = t.interleave) ∧
    (∃ t : State, exec .cli s = .next t ∧
      (t.interleave.notified ≠ 0 → t.interleave.poll = t.interleave.interruptEntry)) ∧
    ∀ q ∈ [(Instr.clc, Flag.c, false), (.sec, .c, true), (.cli, .i, false), (.sei, .i, true),
      (.cld, .d, false), (.sed, .d, true), (.clv, .v, false)],
    ∃ t : State, exec q.1 s = .next t ∧ t = { s with p := t.p, pc := s.pc + 1 } ∧ t.flag q.2.1 = q.2.2 ∧
      (∀ f : Flag, f ≠ q.2.1 → t.flag f = s.flag f) ∧ ∃ u : State, exec q.1 t = .next u ∧ u.p = t.p

/-- R348, R29: BRK pushes pc0 + 2 and P with bits 4 and 5 set, sets I, and goes to the word at 0xFFFE (of two MemReads, low
byte first: the two cells, where no read hook claims them), whatever I was; D and the stored B are unchanged; the poll after it takes no interrupt. -/
def Obligations.BrkEntersTheHandler : Prop :=
  ∀ s : State, s.mem.wf = true → Rows [.brk] [0x00] [.implied] ∧ ∃ t : State, exec .brk s = .next t ∧
    t.sp = s.sp - 3 ∧ t.flag .i = true ∧ t.interleave.poll = t.interleave ∧
    (t.rawRead (stackCell s.sp)).toNat = (s.pc.toNat + 2) % 65536 / 256 ∧
    (t.rawRead (stackCell (s.sp - 1))).toNat = (s.pc.toNat + 2) % 256 ∧
    t.rawRead (stackCell (s.sp - 2)) = s.p ||| 0x30#8 ∧
    (let l := (s.points 4).memRead 0xFFFE#16
      let h := l.2.interleave.memRead 0xFFFF#16
      t.pc.toNat = 256 * h.1.toNat + l.1.toNat) ∧
    (0xFFFE#16 ∉ s.cfg.readRegisters → 0xFFFF#16 ∉ s.cfg.readRegisters →
      t.pc.toNat = 256 * (s.rawRead 0xFFFF#16).toNat + (s.rawRead 0xFFFE#16).toNat) ∧
    Frame [.s] [.i] 5 s t ∧ ViaKept 5 s t ∧ CellsKept [stackCell s.sp, stackCell (s.sp - 1), stackCell (s.sp - 2)] s t

/-- R349, R418: RTI pulls all eight bits of P, then PC low byte first, with no plus one. -/
def Obligations.RtiRestoresFlagsAndPc : Prop :=
  ∀ s : State, Rows [.rti] [0x40] [.implied] ∧ ∃ t : State, exec .rti s = .next t ∧
    t.p = s.rawRead (stackCell (s.sp + 1)) ∧ t.sp = s.sp + 3 ∧
    t.pc.toNat = 256 * (s.rawRead (stackCell (s.sp + 3))).toNat + (s.rawRead (stackCell (s.sp + 2))).toNat ∧
    Frame [.s] [.c, .z, .i, .d, .b, .r, .v, .n] 3 s t ∧ ViaKept 3 s t ∧ CellsKept [] s t

/-! ### Interrupts (60_exceptions.md, sections 2 and 3) -/

/-- R410, R411: the poll enters the handler iff a source is notified and I = 0; entry pushes the live PC and P with bit 4
clear and bit 5 set, sets I, goes to the word at 0xFFFE (of two MemReads, low byte first: the two cells, where no read
hook claims them), and acknowledges nothing; otherwise the poll changes nothing. -/
def Obligations.PollEntersOnUnmaskedNotification : Prop :=
  ∀ s : State, (s.notified = 0 ∨ s.flag .i = true → s.poll = s) ∧
    (s.mem.wf = true → s.notified ≠ 0 → s.flag .i = false →
      let t := s.poll
      t.sp = s.sp - 3 ∧ t.flag .i = true ∧ t.rawRead (stackCell s.sp) = hi8 s.pc ∧
      t.rawRead (stackCell (s.sp - 1)) = lo8 s.pc ∧
      t.rawRead (stackCell (s.sp - 2)) = (s.p &&& 0xEF#8) ||| 0x20#8 ∧
      (let l := (s.points 3).memRead 0xFFFE#16
        let h := l.2.interleave.memRead 0xFFFF#16
        t.pc.toNat = 256 * h.1.toNat + l.1.toNat) ∧
      (0xFFFE#16 ∉ s.cfg.readRegisters → 0xFFFF#16 ∉ s.cfg.readRegisters →
        t.pc.toNat = 256 * (s.rawRead 0xFFFF#16).toNat + (s.rawRead 0xFFFE#16).toNat) ∧
      Frame [.s] [.i] 4 s t ∧ ViaKept 4 s t ∧
      CellsKept [stackCell s.sp, stackCell (s.sp - 1), stackCell (s.sp - 2)] s t)

/-- R413, R418: RTI right after an interrupt entry restores PC, S and every flag the frame holds as it was: all but B and
R, which come back 0 and 1. -/
def Obligations.RtiUndoesInterruptEntry : Prop :=
  ∀ s u : State, s.mem.wf = true → s.notified ≠ 0 → s.flag .i = false → exec .rti s.poll = .next u →
    u.pc = s.pc ∧ u.sp = s.sp ∧ u.a = s.a ∧ u.x = s.x ∧ u.y = s.y ∧ u.flag .b = false ∧ u.flag .r = true ∧
    ∀ f : Flag, f ≠ .b → f ≠ .r → u.flag f = s.flag f

/-! ### Whole-machine rules -/

/-- R26: no instruction changes a flag it is not listed as a writer of (R29 for B and R); an interceptor handler apart. -/
def Obligations.OnlyListedInstructionsWriteAFlag : Prop :=
  ∀ (i : Instr) (s t : State) (f : Flag), NotIntercepted i s → exec i s = .next t → i.mnemonic ∉ flagWriters f →
    t.flag f = s.flag f

/-- R30: no instruction changes a register it is not listed as a writer of; a shift writes A in its Accumulator form only;
an interceptor handler apart. -/
def Obligations.OnlyListedInstructionsWriteARegister : Prop :=
  ∀ (i : Instr) (s t : State) (r : Reg), NotIntercepted i s → exec i s = .next t → i.mnemonic ∉ registerWriters r →
    (r = .a → i.operand.mode ≠ .accumulator) → t.reg r = s.reg r

/-- R142, R23: an instruction that is no jump, call, return, break or branch leaves PC at pc0 + len. -/
def Obligations.PcAdvancesByLength : Prop :=
  ∀ (i : Instr) (s t : State), exec i s = .next t → i.mnemonic ∉ pcWriters →
    t.pc = s.pc + BitVec.ofNat 16 (encode i).length

/-- R67, R431: only stores, pushes, read-modify-writes, JSR and BRK write cells; only the hooked writers, at a VIA
register's address, change enable, autoscan, ddra or lastProbe: the stack never reaches the VIA; a handler apart. -/
def Obligations.OnlyHookedWritesReachTheVia : Prop :=
  ∀ (i : Instr) (s t : State), NotIntercepted i s → exec i s = .next t →
    (i.mnemonic ∉ cellWriters ∨ i.operand.mode = .accumulator → t.mem = s.mem) ∧
    (i.mnemonic ∉ hookedWriters → t.enable = s.enable ∧ t.autoscan = s.autoscan ∧ t.ddra = s.ddra ∧
      t.lastProbe = s.lastProbe)

/-- R153, R401, R407: no instruction faults, in any state: the addressing-mode fault is reached by none of them, and no
stack wrap, overflow or address is an error. -/
def Obligations.NoInstructionFaults : Prop := ∀ (i : Instr) (s : State) (f : Fault), exec i s ≠ .fault f

/-! ### The step (R140 to R142, R404, R490) -/

/-- R141, R410: in a running machine the host has not told to stop, where the three cells from PC are at no address a read
hook claims and decode to i, the step is i on the state that the fetch's accesses leave, and then, if it completes, an
interleaving point and the poll. The fetch leaves what the interleaving points of its accesses make of the state. -/
def Obligations.StepRunsDecodedInstruction : Prop :=
  ∀ (s : State) (i : Instr) (rest : List Byte), s.status = .running → s.interleave.stopRequest = false →
    (∀ k : Nat, k < 3 → s.pc + BitVec.ofNat 16 k ∉ s.cfg.readRegisters) →
    decode [s.rawRead s.pc, s.rawRead (s.pc + 1), s.rawRead (s.pc + 2)] = .ok (i, rest) →
    step s = match exec i (s.points i.length) with
      | .next t => .next t.interleave.poll
      | .fault f => .fault f
      | .refused r => .refused r

/-- R400, R406: an invalid opcode byte at PC is the decode fault with PC and the byte, before anything is written. Of the
state recorded with the fault, which is the model's own form (log 7), no register, flag, cell or VIA register differs from
the state before; the agents have taken the steps of the one interleaving point before the opcode's access (R453). -/
def Obligations.InvalidOpcodeIsDecodeFault : Prop :=
  ∀ s : State, s.status = .running → s.interleave.stopRequest = false →
    isValid (s.interleave.memRead s.pc).1 = false →
    let fault := Fault.decodeFault s.pc (s.interleave.memRead s.pc).1
    step s = .fault fault ∧ (∃ d : Nat, settle s = { s.interleave with draws := d, status := .faulted fault }) ∧
    (settle s).pc = s.pc ∧ (settle s).p = s.p ∧ (∀ r : Reg, (settle s).reg r = s.reg r) ∧ (settle s).mem = s.mem ∧
    (settle s).enable = s.enable ∧ (settle s).autoscan = s.autoscan ∧ (settle s).ddra = s.ddra ∧
    (settle s).lastProbe = s.lastProbe

/-- R403, R406: a refused step of a running machine is an ADC's or SBC's with D = 1 under Refuse. Of the state recorded
with it, which is the model's own form (log 7), no register, flag, cell or VIA register differs from the state before; the
agents have taken the steps of the interleaving points before the fetch's and the operand's accesses (R453). -/
def Obligations.RefusedStepWritesNothing : Prop :=
  ∀ (s : State) (r : Refusal), s.status = .running → step s = .refused r → ∃ (i : Instr) (d : Nat),
    i.mnemonic ∈ [Mnemonic.adc, .sbc] ∧ s.flag .d = true ∧ s.cfg.decimalMode = .refuse ∧
    r = .decimalArithmetic s.pc i.opcode ∧
    settle s = { s.points (i.length + operandReads i.operand) with draws := d, status := .refused r } ∧
    (settle s).pc = s.pc ∧ (settle s).p = s.p ∧ (∀ q : Reg, (settle s).reg q = s.reg q) ∧ (settle s).mem = s.mem ∧
    (settle s).enable = s.enable ∧ (settle s).autoscan = s.autoscan ∧ (settle s).ddra = s.ddra ∧
    (settle s).lastProbe = s.lastProbe

/-- R42, R404: a machine that is not running has no step, and its recorded state never changes. -/
def Obligations.OnlyRunningMachineSteps : Prop :=
  ∀ s t : State, s.status ≠ .running → step s ≠ .next t ∧ settle s = s

/-- R490, R155: when the host has told the loop to stop, the next boundary makes the run status Stopped and executes no
instruction; a stop told inside a step waits for the boundary. -/
def Obligations.HostStopsAtTheBoundary : Prop :=
  (∀ s : State, s.status = .running → s.interleave.stopRequest = true →
    step s = .next { s.interleave with status := .stopped }) ∧
  (∀ s t : State, step s = .next t → t.status = .running ∨ t.status = .stopped ∧ s.interleave.stopRequest = true)

/-- R342, D35: CLI with a source notified and no agent stepping in between is followed by the handler at once: its own poll
enters. -/
def Obligations.CliTakesPendingInterruptAtOnce : Prop :=
  ∀ s : State, s.status = .running → s.stopRequest = false → s.schedule = .quiet → s.mem.wf = true →
    s.notified ≠ 0 → s.pc ∉ s.cfg.readRegisters → 0xFFFE#16 ∉ s.cfg.readRegisters →
    0xFFFF#16 ∉ s.cfg.readRegisters → s.rawRead s.pc = 0x58#8 →
    ∃ t : State, step s = .next t ∧ t.flag .i = true ∧ t.sp = s.sp - 3 ∧
      t.pc.toNat = 256 * (s.rawRead 0xFFFF#16).toNat + (s.rawRead 0xFFFE#16).toNat ∧
      t.rawRead (stackCell s.sp) = hi8 (s.pc + 1) ∧ t.rawRead (stackCell (s.sp - 1)) = lo8 (s.pc + 1) ∧
      (t.rawRead (stackCell (s.sp - 2))).getLsbD 2 = false ∧ t.notified = s.notified

/-- R451, R453: what an interleaving point does is what the schedule has for it: under a free schedule the agents take
free steps at every point and the schedule stays free, so firings have no bound (log 4); a slot's steps happen in order;
under a quiet schedule nothing happens. -/
def Obligations.InterleavingPointsFollowTheSchedule : Prop :=
  ∀ s : State,
    (∀ n : Nat, s.schedule = .free n →
      s.interleave = (Config.freeAgents n).foldl State.agentStep { s with schedule := .free (n + 1) } ∧
      ∀ k : Nat, (s.points k).schedule = .free (n + k)) ∧
    (∀ (steps : List AgentStep) (later : Schedule), s.schedule = .slot steps later →
      s.interleave = steps.foldl State.agentStep { s with schedule := later } ∧ s.interleave.schedule = later) ∧
    (s.schedule = .quiet → ∀ k : Nat, s.points k = s)

/-- The headline invariant, kept by every step from every state that has it: the cells in canonical form (log 1),
pending = notified (R38), no bit without a source pending (R415), wherever the parameters put the sources' bits. -/
def Obligations.StepKeepsInvariant : Prop := ∀ s t : State, s.Inv → step s = .next t → t.Inv

/-- R32, R34, R484: no step changes a launch parameter: the decimal mode, the jump quirk, the fallback, the hook lists and
the interceptor registry are fixed for the whole run, on every reachable state. -/
def Obligations.LaunchParametersAreFixed : Prop := ∀ s t : State, Reachable s t → t.cfg = s.cfg

/-! ### Reset, launch and images (70_reset_and_hazards.md) -/

/-- R45, R480: what reset leaves of what the spec fixes: the VIA's hooks installed, PC the reset vector's word (the two
cells, where no read hook claims them), I = 1, nothing pending, notified or enabled, autoscan on, ddra and lastProbe 0, no
key, Running, for every launch parameter, initial memory and schedule; and PC = e when launched at e (R482). -/
def Obligations.ResetLeavesTheSpecsValues : Prop :=
  ∀ (params : LaunchParams) (m : Memory) (e : Word) (agents : Schedule),
    let s := launch params m none agents
    s.viaHooked ∧ s.cfg.toLaunchParams = params ∧
    (0xFFFC#16 ∉ s.cfg.readRegisters → 0xFFFD#16 ∉ s.cfg.readRegisters →
      s.pc.toNat = 256 * (Memory.read m 0xFFFD).toNat + (Memory.read m 0xFFFC).toNat) ∧ s.flag .i = true ∧
    s.pending = 0 ∧ s.notified = 0 ∧ s.enable = 0 ∧ s.autoscan = true ∧ s.ddra = 0 ∧ s.lastProbe = 0 ∧
    s.lastKey = none ∧ s.status = .running ∧ s.mem = m ∧ s.schedule = agents ∧
    launch params m (some e) agents = { s with pc := e }

/-- The invariant holds at every launch from cells in canonical form, and at reset; State.reset is the launch with the
default parameters, nothing in memory and a quiet schedule, whose unlisted cells, unspecified registers and schedule are
the model's choices (logs 1, 2, 4); the VIA's registers, bits and codes stand there as R8's table has them. -/
def Obligations.ResetHasTheInvariant : Prop :=
  (∀ (params : LaunchParams) (m : Memory) (e : Option Word) (agents : Schedule), m.wf = true →
    (launch params m e agents).Inv ∧ (launch params m e agents).viaHooked) ∧
  State.reset.Inv ∧ State.reset = launch LaunchParams.default [] none .quiet ∧ State.reset.viaHooked ∧
  State.reset.viaApart ∧
  State.reset.cfg.viaRegisters = [0xFE40#16, 0xFE43#16, 0xFE4D#16, 0xFE4E#16, 0xFE4F#16] ∧
  State.reset.cfg.srcTimer.val = 6 ∧ State.reset.cfg.srcVsync.val = 1 ∧ State.reset.cfg.srcKbd.val = 0 ∧
  State.reset.cfg.autoscanOffCode = 0x3#4 ∧ State.reset.cfg.autoscanOnCode = 0xB#4 ∧
  State.reset.cfg.keyPressedBit.val = 7

/-- R402, R106: construction faults exactly on a decoder table with a duplicated byte, and names one that is duplicated;
from any other table it is the launch. The decoder's own table has no duplicated byte. -/
def Obligations.ConstructionFaultsOnDuplicateRow : Prop :=
  (decoderTable.map Row.opcode).Nodup ∧
  ∀ (rows : List Row) (params : LaunchParams) (m : Memory) (e : Option Word) (agents : Schedule),
    ((rows.map Row.opcode).Nodup → construct rows params m e agents = .ok (launch params m e agents)) ∧
    (¬ (rows.map Row.opcode).Nodup → ∃ op : Byte, 2 ≤ (rows.map Row.opcode).count op ∧
      construct rows params m e agents = .error (.constructionFault op))

/-- R487: a relocatable image of at most 65,536 code bytes puts its code from its origin up, wrapping mod 2^16, leaves every
other cell, and enters at its origin. That the memory stays in canonical form is the model's own clause (log 1). -/
def Obligations.RelocatableImageLoadsAtOrigin : Prop :=
  ∀ (lo hi : Byte) (code : List Byte) (m : Memory), m.wf = true → code.length ≤ 65536 →
    ∃ im : Image, loadRelocatable (lo :: hi :: code) m = some im ∧ im.memory.wf = true ∧
      im.entry = some (BitVec.ofNat 16 (256 * hi.toNat + lo.toNat)) ∧
      (∀ k : Nat, (h : k < code.length) →
        Memory.read im.memory ((256 * hi.toNat + lo.toNat + k) % 65536) = code[k]) ∧
      (∀ a : Nat, a < 65536 → (∀ k : Nat, k < code.length → a ≠ (256 * hi.toNat + lo.toNat + k) % 65536) →
        Memory.read im.memory a = Memory.read m a)

/-- R488, R483: a saved snapshot is 65,543 bytes and launches: registers, all eight flags and every cell as saved, the
VIA's hooks installed and its state at the reset values. -/
def Obligations.SnapshotRoundTrip : Prop :=
  ∀ (s : State) (params : LaunchParams) (agents : Schedule), s.mem.wf = true →
    (saveSnapshot s).length = 65543 ∧
    loadSnapshot params agents (saveSnapshot s) = some { State.reset with
      cfg := params.installVia, schedule := agents, pc := s.pc, sp := s.sp, a := s.a, x := s.x, y := s.y, p := s.p,
      mem := s.mem }
end

