-- ==== Sys2Proof/Laws/Memory.lean ====
section
/-! SUPPORT. The laws of the bus cells: reading after writing, and that a write keeps the canonical form. -/

namespace Sys2Proof.Machine

theorem Memory.wfFrom_mono {m : Memory} {lo lo' : Nat} (h : lo' ≤ lo) (hm : Memory.wfFrom lo m = true) :
    Memory.wfFrom lo' m = true := by
  cases m with
  | nil => rfl
  | cons e rest =>
    obtain ⟨a, v⟩ := e
    simp only [Memory.wfFrom, Bool.and_eq_true, decide_eq_true_eq] at hm ⊢
    exact ⟨⟨⟨by omega, hm.1.1.2⟩, hm.1.2⟩, hm.2⟩

/-- A canonical memory reads as unlisted below its first address. -/
theorem Memory.read_below {m : Memory} {lo a : Nat} (hm : Memory.wfFrom lo m = true) (h : a < lo) :
    Memory.read m a = Memory.unlisted := by
  cases m with
  | nil => rfl
  | cons e rest =>
    obtain ⟨b, v⟩ := e
    simp only [Memory.wfFrom, Bool.and_eq_true, decide_eq_true_eq] at hm
    simp [Memory.read, show a < b by omega]

theorem Memory.read_entry_same {rest : Memory} {a : Nat} {v : Byte} (h : Memory.wfFrom (a + 1) rest = true) :
    Memory.read (Memory.entry a v rest) a = v := by
  unfold Memory.entry
  split
  · next hv => rw [Memory.read_below h (Nat.lt_succ_self a), hv]
  · simp [Memory.read]

theorem Memory.read_entry_other {rest : Memory} {a c : Nat} {v : Byte} (h : Memory.wfFrom (a + 1) rest = true)
    (hc : c ≠ a) : Memory.read (Memory.entry a v rest) c = Memory.read rest c := by
  unfold Memory.entry
  split
  · rfl
  · by_cases hlt : c < a
    · simp [Memory.read, hlt, Memory.read_below h (show c < a + 1 by omega)]
    · simp [Memory.read, hlt, hc]

theorem Memory.wfFrom_entry {rest : Memory} {lo a : Nat} {v : Byte} (hlo : lo ≤ a) (ha : a < 65536)
    (h : Memory.wfFrom (a + 1) rest = true) : Memory.wfFrom lo (Memory.entry a v rest) = true := by
  unfold Memory.entry
  split
  · exact Memory.wfFrom_mono (by omega) h
  · next hv => simp [Memory.wfFrom, hlo, ha, hv, h]

theorem Memory.wfFrom_write {m : Memory} {lo a : Nat} {v : Byte} (hm : Memory.wfFrom lo m = true) (hlo : lo ≤ a)
    (ha : a < 65536) : Memory.wfFrom lo (Memory.write m a v) = true := by
  induction m generalizing lo with
  | nil => exact Memory.wfFrom_entry hlo ha rfl
  | cons e rest ih =>
    obtain ⟨b, u⟩ := e
    have hm' := hm
    simp only [Memory.wfFrom, Bool.and_eq_true, decide_eq_true_eq] at hm
    unfold Memory.write
    split
    · refine Memory.wfFrom_entry hlo ha ?_
      simp only [Memory.wfFrom, Bool.and_eq_true, decide_eq_true_eq]
      exact ⟨⟨⟨by omega, hm.1.1.2⟩, hm.1.2⟩, hm.2⟩
    · split
      · next h => subst h; exact Memory.wfFrom_entry hlo ha hm.2
      · simp only [Memory.wfFrom, Bool.and_eq_true, decide_eq_true_eq]
        exact ⟨hm.1, ih hm.2 (by omega)⟩

theorem Memory.read_write_same_from {m : Memory} {lo a : Nat} {v : Byte} (hm : Memory.wfFrom lo m = true) :
    Memory.read (Memory.write m a v) a = v := by
  induction m generalizing lo with
  | nil => exact Memory.read_entry_same rfl
  | cons e rest ih =>
    obtain ⟨b, u⟩ := e
    have hm' := hm
    simp only [Memory.wfFrom, Bool.and_eq_true, decide_eq_true_eq] at hm
    unfold Memory.write
    split
    · refine Memory.read_entry_same ?_
      simp only [Memory.wfFrom, Bool.and_eq_true, decide_eq_true_eq]
      exact ⟨⟨⟨by omega, hm.1.1.2⟩, hm.1.2⟩, hm.2⟩
    · split
      · next h => subst h; exact Memory.read_entry_same hm.2
      · next h1 h2 => simp [Memory.read, h1, h2, ih hm.2]

theorem Memory.read_write_other_from {m : Memory} {lo a c : Nat} {v : Byte} (hm : Memory.wfFrom lo m = true)
    (hc : c ≠ a) : Memory.read (Memory.write m a v) c = Memory.read m c := by
  induction m generalizing lo with
  | nil => exact Memory.read_entry_other rfl hc
  | cons e rest ih =>
    obtain ⟨b, u⟩ := e
    simp only [Memory.wfFrom, Bool.and_eq_true, decide_eq_true_eq] at hm
    unfold Memory.write
    split
    · refine Memory.read_entry_other ?_ hc
      simp only [Memory.wfFrom, Bool.and_eq_true, decide_eq_true_eq]
      exact ⟨⟨⟨by omega, hm.1.1.2⟩, hm.1.2⟩, hm.2⟩
    · split
      · next h =>
        subst h
        rw [Memory.read_entry_other hm.2 hc]
        by_cases hlt : c < a
        · simp [Memory.read, hlt, Memory.read_below hm.2 (show c < a + 1 by omega)]
        · simp [Memory.read, hlt, hc]
      · simp [Memory.read, ih hm.2]

/-- Reading the cell just written. -/
theorem Memory.read_write_same {m : Memory} {a : Nat} {v : Byte} (hm : m.wf = true) :
    Memory.read (Memory.write m a v) a = v := Memory.read_write_same_from hm

/-- Reading another cell. -/
theorem Memory.read_write_other {m : Memory} {a c : Nat} {v : Byte} (hm : m.wf = true) (hc : c ≠ a) :
    Memory.read (Memory.write m a v) c = Memory.read m c := Memory.read_write_other_from hm hc

/-- Every write keeps the canonical form. -/
theorem Memory.wf_write {m : Memory} {a : Nat} {v : Byte} (hm : m.wf = true) (ha : a < 65536) :
    (Memory.write m a v).wf = true := Memory.wfFrom_write hm (Nat.zero_le a) ha

/-- Canonical memories that read alike are equal. -/
theorem Memory.eq_of_read {m n : Memory} {lo : Nat} (hm : Memory.wfFrom lo m = true) (hn : Memory.wfFrom lo n = true)
    (h : ∀ a, Memory.read m a = Memory.read n a) : m = n := by
  induction m generalizing n lo with
  | nil =>
    cases n with
    | nil => rfl
    | cons f q =>
      obtain ⟨b, v⟩ := f
      simp only [Memory.wfFrom, Bool.and_eq_true, decide_eq_true_eq] at hn
      have := h b
      simp only [Memory.read, lt_irrefl, if_false, if_true] at this
      exact absurd this.symm hn.1.2
  | cons e p ih =>
    obtain ⟨a, u⟩ := e
    have hm0 := hm
    have hn0 := hn
    simp only [Memory.wfFrom, Bool.and_eq_true, decide_eq_true_eq] at hm
    cases n with
    | nil =>
      have := h a
      simp only [Memory.read, lt_irrefl, if_false, if_true] at this
      exact absurd this hm.1.2
    | cons f q =>
      obtain ⟨b, v⟩ := f
      simp only [Memory.wfFrom, Bool.and_eq_true, decide_eq_true_eq] at hn
      have hab : a = b := by
        rcases Nat.lt_trichotomy a b with hl | he | hl
        · have := h a
          simp [Memory.read, hl] at this
          exact absurd this hm.1.2
        · exact he
        · have := h b
          simp [Memory.read, hl] at this
          exact absurd this.symm hn.1.2
      subst hab
      have huv : u = v := by simpa [Memory.read] using h a
      subst huv
      have : p = q := by
        refine ih hm.2 hn.2 fun c => ?_
        by_cases hc : c < a + 1
        · rw [Memory.read_below hm.2 hc, Memory.read_below hn.2 hc]
        · have := h c
          simpa [Memory.read, show ¬ c < a by omega, show c ≠ a by omega] using this
      rw [this]

/-- Above the address space a canonical memory lists nothing. -/
theorem Memory.read_above {m : Memory} {lo a : Nat} (hm : Memory.wfFrom lo m = true) (h : 65536 ≤ a) :
    Memory.read m a = Memory.unlisted := by
  induction m generalizing lo with
  | nil => rfl
  | cons e rest ih =>
    obtain ⟨b, v⟩ := e
    simp only [Memory.wfFrom, Bool.and_eq_true, decide_eq_true_eq] at hm
    simp only [Memory.read]
    rw [if_neg (by omega), if_neg (by omega)]
    exact ih hm.2

@[simp] theorem Memory.wf_nil : Memory.wf [] = true := rfl

end Sys2Proof.Machine
end

