-- ==== Sys2Proof/Laws/State.lean ====
section
/-! SUPPORT. One lemma per field per update, each true by unfolding, so that no proof unfolds a record update. -/

namespace Sys2Proof.Machine

/-! ### Writing register a -/

@[simp] theorem State.setReg_a_pc (s : State) (v : Byte) : (s.setReg .a v).pc = s.pc := rfl
@[simp] theorem State.setReg_a_sp (s : State) (v : Byte) : (s.setReg .a v).sp = s.sp := rfl
@[simp] theorem State.setReg_a_a (s : State) (v : Byte) : (s.setReg .a v).a = v := rfl
@[simp] theorem State.setReg_a_x (s : State) (v : Byte) : (s.setReg .a v).x = s.x := rfl
@[simp] theorem State.setReg_a_y (s : State) (v : Byte) : (s.setReg .a v).y = s.y := rfl
@[simp] theorem State.setReg_a_p (s : State) (v : Byte) : (s.setReg .a v).p = s.p := rfl
@[simp] theorem State.setReg_a_mem (s : State) (v : Byte) : (s.setReg .a v).mem = s.mem := rfl
@[simp] theorem State.setReg_a_pending (s : State) (v : Byte) : (s.setReg .a v).pending = s.pending := rfl
@[simp] theorem State.setReg_a_notified (s : State) (v : Byte) : (s.setReg .a v).notified = s.notified := rfl
@[simp] theorem State.setReg_a_enable (s : State) (v : Byte) : (s.setReg .a v).enable = s.enable := rfl
@[simp] theorem State.setReg_a_autoscan (s : State) (v : Byte) : (s.setReg .a v).autoscan = s.autoscan := rfl
@[simp] theorem State.setReg_a_ddra (s : State) (v : Byte) : (s.setReg .a v).ddra = s.ddra := rfl
@[simp] theorem State.setReg_a_lastKey (s : State) (v : Byte) : (s.setReg .a v).lastKey = s.lastKey := rfl
@[simp] theorem State.setReg_a_lastProbe (s : State) (v : Byte) : (s.setReg .a v).lastProbe = s.lastProbe := rfl
@[simp] theorem State.setReg_a_status (s : State) (v : Byte) : (s.setReg .a v).status = s.status := rfl
@[simp] theorem State.setReg_a_cfg (s : State) (v : Byte) : (s.setReg .a v).cfg = s.cfg := rfl
@[simp] theorem State.setReg_a_schedule (s : State) (v : Byte) : (s.setReg .a v).schedule = s.schedule := rfl
@[simp] theorem State.setReg_a_stopRequest (s : State) (v : Byte) : (s.setReg .a v).stopRequest = s.stopRequest := rfl
@[simp] theorem State.setReg_a_handlerScript (s : State) (v : Byte) :
    (s.setReg .a v).handlerScript = s.handlerScript := rfl
@[simp] theorem State.setReg_a_draws (s : State) (v : Byte) : (s.setReg .a v).draws = s.draws := rfl

/-! ### Writing register x -/

@[simp] theorem State.setReg_x_pc (s : State) (v : Byte) : (s.setReg .x v).pc = s.pc := rfl
@[simp] theorem State.setReg_x_sp (s : State) (v : Byte) : (s.setReg .x v).sp = s.sp := rfl
@[simp] theorem State.setReg_x_a (s : State) (v : Byte) : (s.setReg .x v).a = s.a := rfl
@[simp] theorem State.setReg_x_x (s : State) (v : Byte) : (s.setReg .x v).x = v := rfl
@[simp] theorem State.setReg_x_y (s : State) (v : Byte) : (s.setReg .x v).y = s.y := rfl
@[simp] theorem State.setReg_x_p (s : State) (v : Byte) : (s.setReg .x v).p = s.p := rfl
@[simp] theorem State.setReg_x_mem (s : State) (v : Byte) : (s.setReg .x v).mem = s.mem := rfl
@[simp] theorem State.setReg_x_pending (s : State) (v : Byte) : (s.setReg .x v).pending = s.pending := rfl
@[simp] theorem State.setReg_x_notified (s : State) (v : Byte) : (s.setReg .x v).notified = s.notified := rfl
@[simp] theorem State.setReg_x_enable (s : State) (v : Byte) : (s.setReg .x v).enable = s.enable := rfl
@[simp] theorem State.setReg_x_autoscan (s : State) (v : Byte) : (s.setReg .x v).autoscan = s.autoscan := rfl
@[simp] theorem State.setReg_x_ddra (s : State) (v : Byte) : (s.setReg .x v).ddra = s.ddra := rfl
@[simp] theorem State.setReg_x_lastKey (s : State) (v : Byte) : (s.setReg .x v).lastKey = s.lastKey := rfl
@[simp] theorem State.setReg_x_lastProbe (s : State) (v : Byte) : (s.setReg .x v).lastProbe = s.lastProbe := rfl
@[simp] theorem State.setReg_x_status (s : State) (v : Byte) : (s.setReg .x v).status = s.status := rfl
@[simp] theorem State.setReg_x_cfg (s : State) (v : Byte) : (s.setReg .x v).cfg = s.cfg := rfl
@[simp] theorem State.setReg_x_schedule (s : State) (v : Byte) : (s.setReg .x v).schedule = s.schedule := rfl
@[simp] theorem State.setReg_x_stopRequest (s : State) (v : Byte) : (s.setReg .x v).stopRequest = s.stopRequest := rfl
@[simp] theorem State.setReg_x_handlerScript (s : State) (v : Byte) :
    (s.setReg .x v).handlerScript = s.handlerScript := rfl
@[simp] theorem State.setReg_x_draws (s : State) (v : Byte) : (s.setReg .x v).draws = s.draws := rfl

/-! ### Writing register y -/

@[simp] theorem State.setReg_y_pc (s : State) (v : Byte) : (s.setReg .y v).pc = s.pc := rfl
@[simp] theorem State.setReg_y_sp (s : State) (v : Byte) : (s.setReg .y v).sp = s.sp := rfl
@[simp] theorem State.setReg_y_a (s : State) (v : Byte) : (s.setReg .y v).a = s.a := rfl
@[simp] theorem State.setReg_y_x (s : State) (v : Byte) : (s.setReg .y v).x = s.x := rfl
@[simp] theorem State.setReg_y_y (s : State) (v : Byte) : (s.setReg .y v).y = v := rfl
@[simp] theorem State.setReg_y_p (s : State) (v : Byte) : (s.setReg .y v).p = s.p := rfl
@[simp] theorem State.setReg_y_mem (s : State) (v : Byte) : (s.setReg .y v).mem = s.mem := rfl
@[simp] theorem State.setReg_y_pending (s : State) (v : Byte) : (s.setReg .y v).pending = s.pending := rfl
@[simp] theorem State.setReg_y_notified (s : State) (v : Byte) : (s.setReg .y v).notified = s.notified := rfl
@[simp] theorem State.setReg_y_enable (s : State) (v : Byte) : (s.setReg .y v).enable = s.enable := rfl
@[simp] theorem State.setReg_y_autoscan (s : State) (v : Byte) : (s.setReg .y v).autoscan = s.autoscan := rfl
@[simp] theorem State.setReg_y_ddra (s : State) (v : Byte) : (s.setReg .y v).ddra = s.ddra := rfl
@[simp] theorem State.setReg_y_lastKey (s : State) (v : Byte) : (s.setReg .y v).lastKey = s.lastKey := rfl
@[simp] theorem State.setReg_y_lastProbe (s : State) (v : Byte) : (s.setReg .y v).lastProbe = s.lastProbe := rfl
@[simp] theorem State.setReg_y_status (s : State) (v : Byte) : (s.setReg .y v).status = s.status := rfl
@[simp] theorem State.setReg_y_cfg (s : State) (v : Byte) : (s.setReg .y v).cfg = s.cfg := rfl
@[simp] theorem State.setReg_y_schedule (s : State) (v : Byte) : (s.setReg .y v).schedule = s.schedule := rfl
@[simp] theorem State.setReg_y_stopRequest (s : State) (v : Byte) : (s.setReg .y v).stopRequest = s.stopRequest := rfl
@[simp] theorem State.setReg_y_handlerScript (s : State) (v : Byte) :
    (s.setReg .y v).handlerScript = s.handlerScript := rfl
@[simp] theorem State.setReg_y_draws (s : State) (v : Byte) : (s.setReg .y v).draws = s.draws := rfl

/-! ### Writing register sp -/

@[simp] theorem State.setReg_s_pc (s : State) (v : Byte) : (s.setReg .s v).pc = s.pc := rfl
@[simp] theorem State.setReg_s_sp (s : State) (v : Byte) : (s.setReg .s v).sp = v := rfl
@[simp] theorem State.setReg_s_a (s : State) (v : Byte) : (s.setReg .s v).a = s.a := rfl
@[simp] theorem State.setReg_s_x (s : State) (v : Byte) : (s.setReg .s v).x = s.x := rfl
@[simp] theorem State.setReg_s_y (s : State) (v : Byte) : (s.setReg .s v).y = s.y := rfl
@[simp] theorem State.setReg_s_p (s : State) (v : Byte) : (s.setReg .s v).p = s.p := rfl
@[simp] theorem State.setReg_s_mem (s : State) (v : Byte) : (s.setReg .s v).mem = s.mem := rfl
@[simp] theorem State.setReg_s_pending (s : State) (v : Byte) : (s.setReg .s v).pending = s.pending := rfl
@[simp] theorem State.setReg_s_notified (s : State) (v : Byte) : (s.setReg .s v).notified = s.notified := rfl
@[simp] theorem State.setReg_s_enable (s : State) (v : Byte) : (s.setReg .s v).enable = s.enable := rfl
@[simp] theorem State.setReg_s_autoscan (s : State) (v : Byte) : (s.setReg .s v).autoscan = s.autoscan := rfl
@[simp] theorem State.setReg_s_ddra (s : State) (v : Byte) : (s.setReg .s v).ddra = s.ddra := rfl
@[simp] theorem State.setReg_s_lastKey (s : State) (v : Byte) : (s.setReg .s v).lastKey = s.lastKey := rfl
@[simp] theorem State.setReg_s_lastProbe (s : State) (v : Byte) : (s.setReg .s v).lastProbe = s.lastProbe := rfl
@[simp] theorem State.setReg_s_status (s : State) (v : Byte) : (s.setReg .s v).status = s.status := rfl
@[simp] theorem State.setReg_s_cfg (s : State) (v : Byte) : (s.setReg .s v).cfg = s.cfg := rfl
@[simp] theorem State.setReg_s_schedule (s : State) (v : Byte) : (s.setReg .s v).schedule = s.schedule := rfl
@[simp] theorem State.setReg_s_stopRequest (s : State) (v : Byte) : (s.setReg .s v).stopRequest = s.stopRequest := rfl
@[simp] theorem State.setReg_s_handlerScript (s : State) (v : Byte) :
    (s.setReg .s v).handlerScript = s.handlerScript := rfl
@[simp] theorem State.setReg_s_draws (s : State) (v : Byte) : (s.setReg .s v).draws = s.draws := rfl

/-! ### Setting one flag -/

@[simp] theorem State.setFlag_pc (s : State) (f : Flag) (v : Bool) : (s.setFlag f v).pc = s.pc := rfl
@[simp] theorem State.setFlag_sp (s : State) (f : Flag) (v : Bool) : (s.setFlag f v).sp = s.sp := rfl
@[simp] theorem State.setFlag_a (s : State) (f : Flag) (v : Bool) : (s.setFlag f v).a = s.a := rfl
@[simp] theorem State.setFlag_x (s : State) (f : Flag) (v : Bool) : (s.setFlag f v).x = s.x := rfl
@[simp] theorem State.setFlag_y (s : State) (f : Flag) (v : Bool) : (s.setFlag f v).y = s.y := rfl
@[simp] theorem State.setFlag_p (s : State) (f : Flag) (v : Bool) : (s.setFlag f v).p = f.put v s.p := rfl
@[simp] theorem State.setFlag_mem (s : State) (f : Flag) (v : Bool) : (s.setFlag f v).mem = s.mem := rfl
@[simp] theorem State.setFlag_pending (s : State) (f : Flag) (v : Bool) : (s.setFlag f v).pending = s.pending := rfl
@[simp] theorem State.setFlag_notified (s : State) (f : Flag) (v : Bool) :
    (s.setFlag f v).notified = s.notified := rfl
@[simp] theorem State.setFlag_enable (s : State) (f : Flag) (v : Bool) : (s.setFlag f v).enable = s.enable := rfl
@[simp] theorem State.setFlag_autoscan (s : State) (f : Flag) (v : Bool) :
    (s.setFlag f v).autoscan = s.autoscan := rfl
@[simp] theorem State.setFlag_ddra (s : State) (f : Flag) (v : Bool) : (s.setFlag f v).ddra = s.ddra := rfl
@[simp] theorem State.setFlag_lastKey (s : State) (f : Flag) (v : Bool) : (s.setFlag f v).lastKey = s.lastKey := rfl
@[simp] theorem State.setFlag_lastProbe (s : State) (f : Flag) (v : Bool) :
    (s.setFlag f v).lastProbe = s.lastProbe := rfl
@[simp] theorem State.setFlag_status (s : State) (f : Flag) (v : Bool) : (s.setFlag f v).status = s.status := rfl
@[simp] theorem State.setFlag_cfg (s : State) (f : Flag) (v : Bool) : (s.setFlag f v).cfg = s.cfg := rfl
@[simp] theorem State.setFlag_schedule (s : State) (f : Flag) (v : Bool) :
    (s.setFlag f v).schedule = s.schedule := rfl
@[simp] theorem State.setFlag_stopRequest (s : State) (f : Flag) (v : Bool) :
    (s.setFlag f v).stopRequest = s.stopRequest := rfl
@[simp] theorem State.setFlag_handlerScript (s : State) (f : Flag) (v : Bool) :
    (s.setFlag f v).handlerScript = s.handlerScript := rfl
@[simp] theorem State.setFlag_draws (s : State) (f : Flag) (v : Bool) : (s.setFlag f v).draws = s.draws := rfl

/-! ### Setting all flags -/

@[simp] theorem State.setFlags_pc (s : State) (v : Byte) : (s.setFlags v).pc = s.pc := rfl
@[simp] theorem State.setFlags_sp (s : State) (v : Byte) : (s.setFlags v).sp = s.sp := rfl
@[simp] theorem State.setFlags_a (s : State) (v : Byte) : (s.setFlags v).a = s.a := rfl
@[simp] theorem State.setFlags_x (s : State) (v : Byte) : (s.setFlags v).x = s.x := rfl
@[simp] theorem State.setFlags_y (s : State) (v : Byte) : (s.setFlags v).y = s.y := rfl
@[simp] theorem State.setFlags_p (s : State) (v : Byte) : (s.setFlags v).p = v := rfl
@[simp] theorem State.setFlags_mem (s : State) (v : Byte) : (s.setFlags v).mem = s.mem := rfl
@[simp] theorem State.setFlags_pending (s : State) (v : Byte) : (s.setFlags v).pending = s.pending := rfl
@[simp] theorem State.setFlags_notified (s : State) (v : Byte) : (s.setFlags v).notified = s.notified := rfl
@[simp] theorem State.setFlags_enable (s : State) (v : Byte) : (s.setFlags v).enable = s.enable := rfl
@[simp] theorem State.setFlags_autoscan (s : State) (v : Byte) : (s.setFlags v).autoscan = s.autoscan := rfl
@[simp] theorem State.setFlags_ddra (s : State) (v : Byte) : (s.setFlags v).ddra = s.ddra := rfl
@[simp] theorem State.setFlags_lastKey (s : State) (v : Byte) : (s.setFlags v).lastKey = s.lastKey := rfl
@[simp] theorem State.setFlags_lastProbe (s : State) (v : Byte) : (s.setFlags v).lastProbe = s.lastProbe := rfl
@[simp] theorem State.setFlags_status (s : State) (v : Byte) : (s.setFlags v).status = s.status := rfl
@[simp] theorem State.setFlags_cfg (s : State) (v : Byte) : (s.setFlags v).cfg = s.cfg := rfl
@[simp] theorem State.setFlags_schedule (s : State) (v : Byte) : (s.setFlags v).schedule = s.schedule := rfl
@[simp] theorem State.setFlags_stopRequest (s : State) (v : Byte) : (s.setFlags v).stopRequest = s.stopRequest := rfl
@[simp] theorem State.setFlags_handlerScript (s : State) (v : Byte) :
    (s.setFlags v).handlerScript = s.handlerScript := rfl
@[simp] theorem State.setFlags_draws (s : State) (v : Byte) : (s.setFlags v).draws = s.draws := rfl

/-! ### Setting Z and N -/

@[simp] theorem State.setZN_pc (s : State) (v : Byte) : (s.setZN v).pc = s.pc := rfl
@[simp] theorem State.setZN_sp (s : State) (v : Byte) : (s.setZN v).sp = s.sp := rfl
@[simp] theorem State.setZN_a (s : State) (v : Byte) : (s.setZN v).a = s.a := rfl
@[simp] theorem State.setZN_x (s : State) (v : Byte) : (s.setZN v).x = s.x := rfl
@[simp] theorem State.setZN_y (s : State) (v : Byte) : (s.setZN v).y = s.y := rfl
@[simp] theorem State.setZN_mem (s : State) (v : Byte) : (s.setZN v).mem = s.mem := rfl
@[simp] theorem State.setZN_pending (s : State) (v : Byte) : (s.setZN v).pending = s.pending := rfl
@[simp] theorem State.setZN_notified (s : State) (v : Byte) : (s.setZN v).notified = s.notified := rfl
@[simp] theorem State.setZN_enable (s : State) (v : Byte) : (s.setZN v).enable = s.enable := rfl
@[simp] theorem State.setZN_autoscan (s : State) (v : Byte) : (s.setZN v).autoscan = s.autoscan := rfl
@[simp] theorem State.setZN_ddra (s : State) (v : Byte) : (s.setZN v).ddra = s.ddra := rfl
@[simp] theorem State.setZN_lastKey (s : State) (v : Byte) : (s.setZN v).lastKey = s.lastKey := rfl
@[simp] theorem State.setZN_lastProbe (s : State) (v : Byte) : (s.setZN v).lastProbe = s.lastProbe := rfl
@[simp] theorem State.setZN_status (s : State) (v : Byte) : (s.setZN v).status = s.status := rfl
@[simp] theorem State.setZN_cfg (s : State) (v : Byte) : (s.setZN v).cfg = s.cfg := rfl
@[simp] theorem State.setZN_schedule (s : State) (v : Byte) : (s.setZN v).schedule = s.schedule := rfl
@[simp] theorem State.setZN_stopRequest (s : State) (v : Byte) : (s.setZN v).stopRequest = s.stopRequest := rfl
@[simp] theorem State.setZN_handlerScript (s : State) (v : Byte) : (s.setZN v).handlerScript = s.handlerScript := rfl
@[simp] theorem State.setZN_draws (s : State) (v : Byte) : (s.setZN v).draws = s.draws := rfl

/-! ### The flags of a sum -/

@[simp] theorem State.setSumFlags_pc (s : State) (r : Sum) : (s.setSumFlags r).pc = s.pc := rfl
@[simp] theorem State.setSumFlags_sp (s : State) (r : Sum) : (s.setSumFlags r).sp = s.sp := rfl
@[simp] theorem State.setSumFlags_a (s : State) (r : Sum) : (s.setSumFlags r).a = s.a := rfl
@[simp] theorem State.setSumFlags_x (s : State) (r : Sum) : (s.setSumFlags r).x = s.x := rfl
@[simp] theorem State.setSumFlags_y (s : State) (r : Sum) : (s.setSumFlags r).y = s.y := rfl
@[simp] theorem State.setSumFlags_mem (s : State) (r : Sum) : (s.setSumFlags r).mem = s.mem := rfl
@[simp] theorem State.setSumFlags_pending (s : State) (r : Sum) : (s.setSumFlags r).pending = s.pending := rfl
@[simp] theorem State.setSumFlags_notified (s : State) (r : Sum) : (s.setSumFlags r).notified = s.notified := rfl
@[simp] theorem State.setSumFlags_enable (s : State) (r : Sum) : (s.setSumFlags r).enable = s.enable := rfl
@[simp] theorem State.setSumFlags_autoscan (s : State) (r : Sum) : (s.setSumFlags r).autoscan = s.autoscan := rfl
@[simp] theorem State.setSumFlags_ddra (s : State) (r : Sum) : (s.setSumFlags r).ddra = s.ddra := rfl
@[simp] theorem State.setSumFlags_lastKey (s : State) (r : Sum) : (s.setSumFlags r).lastKey = s.lastKey := rfl
@[simp] theorem State.setSumFlags_lastProbe (s : State) (r : Sum) : (s.setSumFlags r).lastProbe = s.lastProbe := rfl
@[simp] theorem State.setSumFlags_status (s : State) (r : Sum) : (s.setSumFlags r).status = s.status := rfl
@[simp] theorem State.setSumFlags_cfg (s : State) (r : Sum) : (s.setSumFlags r).cfg = s.cfg := rfl
@[simp] theorem State.setSumFlags_schedule (s : State) (r : Sum) : (s.setSumFlags r).schedule = s.schedule := rfl
@[simp] theorem State.setSumFlags_stopRequest (s : State) (r : Sum) :
    (s.setSumFlags r).stopRequest = s.stopRequest := rfl
@[simp] theorem State.setSumFlags_handlerScript (s : State) (r : Sum) :
    (s.setSumFlags r).handlerScript = s.handlerScript := rfl
@[simp] theorem State.setSumFlags_draws (s : State) (r : Sum) : (s.setSumFlags r).draws = s.draws := rfl

/-! ### The flags of a comparison -/

@[simp] theorem State.compare_pc (s : State) (r m : Byte) : (s.compare r m).pc = s.pc := rfl
@[simp] theorem State.compare_sp (s : State) (r m : Byte) : (s.compare r m).sp = s.sp := rfl
@[simp] theorem State.compare_a (s : State) (r m : Byte) : (s.compare r m).a = s.a := rfl
@[simp] theorem State.compare_x (s : State) (r m : Byte) : (s.compare r m).x = s.x := rfl
@[simp] theorem State.compare_y (s : State) (r m : Byte) : (s.compare r m).y = s.y := rfl
@[simp] theorem State.compare_mem (s : State) (r m : Byte) : (s.compare r m).mem = s.mem := rfl
@[simp] theorem State.compare_pending (s : State) (r m : Byte) : (s.compare r m).pending = s.pending := rfl
@[simp] theorem State.compare_notified (s : State) (r m : Byte) : (s.compare r m).notified = s.notified := rfl
@[simp] theorem State.compare_enable (s : State) (r m : Byte) : (s.compare r m).enable = s.enable := rfl
@[simp] theorem State.compare_autoscan (s : State) (r m : Byte) : (s.compare r m).autoscan = s.autoscan := rfl
@[simp] theorem State.compare_ddra (s : State) (r m : Byte) : (s.compare r m).ddra = s.ddra := rfl
@[simp] theorem State.compare_lastKey (s : State) (r m : Byte) : (s.compare r m).lastKey = s.lastKey := rfl
@[simp] theorem State.compare_lastProbe (s : State) (r m : Byte) : (s.compare r m).lastProbe = s.lastProbe := rfl
@[simp] theorem State.compare_status (s : State) (r m : Byte) : (s.compare r m).status = s.status := rfl
@[simp] theorem State.compare_cfg (s : State) (r m : Byte) : (s.compare r m).cfg = s.cfg := rfl
@[simp] theorem State.compare_schedule (s : State) (r m : Byte) : (s.compare r m).schedule = s.schedule := rfl
@[simp] theorem State.compare_stopRequest (s : State) (r m : Byte) :
    (s.compare r m).stopRequest = s.stopRequest := rfl
@[simp] theorem State.compare_handlerScript (s : State) (r m : Byte) :
    (s.compare r m).handlerScript = s.handlerScript := rfl
@[simp] theorem State.compare_draws (s : State) (r m : Byte) : (s.compare r m).draws = s.draws := rfl

/-! ### The flags of BIT -/

@[simp] theorem State.bitTest_pc (s : State) (m : Byte) : (s.bitTest m).pc = s.pc := rfl
@[simp] theorem State.bitTest_sp (s : State) (m : Byte) : (s.bitTest m).sp = s.sp := rfl
@[simp] theorem State.bitTest_a (s : State) (m : Byte) : (s.bitTest m).a = s.a := rfl
@[simp] theorem State.bitTest_x (s : State) (m : Byte) : (s.bitTest m).x = s.x := rfl
@[simp] theorem State.bitTest_y (s : State) (m : Byte) : (s.bitTest m).y = s.y := rfl
@[simp] theorem State.bitTest_mem (s : State) (m : Byte) : (s.bitTest m).mem = s.mem := rfl
@[simp] theorem State.bitTest_pending (s : State) (m : Byte) : (s.bitTest m).pending = s.pending := rfl
@[simp] theorem State.bitTest_notified (s : State) (m : Byte) : (s.bitTest m).notified = s.notified := rfl
@[simp] theorem State.bitTest_enable (s : State) (m : Byte) : (s.bitTest m).enable = s.enable := rfl
@[simp] theorem State.bitTest_autoscan (s : State) (m : Byte) : (s.bitTest m).autoscan = s.autoscan := rfl
@[simp] theorem State.bitTest_ddra (s : State) (m : Byte) : (s.bitTest m).ddra = s.ddra := rfl
@[simp] theorem State.bitTest_lastKey (s : State) (m : Byte) : (s.bitTest m).lastKey = s.lastKey := rfl
@[simp] theorem State.bitTest_lastProbe (s : State) (m : Byte) : (s.bitTest m).lastProbe = s.lastProbe := rfl
@[simp] theorem State.bitTest_status (s : State) (m : Byte) : (s.bitTest m).status = s.status := rfl
@[simp] theorem State.bitTest_cfg (s : State) (m : Byte) : (s.bitTest m).cfg = s.cfg := rfl
@[simp] theorem State.bitTest_schedule (s : State) (m : Byte) : (s.bitTest m).schedule = s.schedule := rfl
@[simp] theorem State.bitTest_stopRequest (s : State) (m : Byte) : (s.bitTest m).stopRequest = s.stopRequest := rfl
@[simp] theorem State.bitTest_handlerScript (s : State) (m : Byte) :
    (s.bitTest m).handlerScript = s.handlerScript := rfl
@[simp] theorem State.bitTest_draws (s : State) (m : Byte) : (s.bitTest m).draws = s.draws := rfl

/-! ### The flags of a shift -/

@[simp] theorem State.setShiftFlags_pc (s : State) (f : Shift) (m r : Byte) : (s.setShiftFlags f m r).pc = s.pc := rfl
@[simp] theorem State.setShiftFlags_sp (s : State) (f : Shift) (m r : Byte) : (s.setShiftFlags f m r).sp = s.sp := rfl
@[simp] theorem State.setShiftFlags_a (s : State) (f : Shift) (m r : Byte) : (s.setShiftFlags f m r).a = s.a := rfl
@[simp] theorem State.setShiftFlags_x (s : State) (f : Shift) (m r : Byte) : (s.setShiftFlags f m r).x = s.x := rfl
@[simp] theorem State.setShiftFlags_y (s : State) (f : Shift) (m r : Byte) : (s.setShiftFlags f m r).y = s.y := rfl
@[simp] theorem State.setShiftFlags_mem (s : State) (f : Shift) (m r : Byte) :
    (s.setShiftFlags f m r).mem = s.mem := rfl
@[simp] theorem State.setShiftFlags_pending (s : State) (f : Shift) (m r : Byte) :
    (s.setShiftFlags f m r).pending = s.pending := rfl
@[simp] theorem State.setShiftFlags_notified (s : State) (f : Shift) (m r : Byte) :
    (s.setShiftFlags f m r).notified = s.notified := rfl
@[simp] theorem State.setShiftFlags_enable (s : State) (f : Shift) (m r : Byte) :
    (s.setShiftFlags f m r).enable = s.enable := rfl
@[simp] theorem State.setShiftFlags_autoscan (s : State) (f : Shift) (m r : Byte) :
    (s.setShiftFlags f m r).autoscan = s.autoscan := rfl
@[simp] theorem State.setShiftFlags_ddra (s : State) (f : Shift) (m r : Byte) :
    (s.setShiftFlags f m r).ddra = s.ddra := rfl
@[simp] theorem State.setShiftFlags_lastKey (s : State) (f : Shift) (m r : Byte) :
    (s.setShiftFlags f m r).lastKey = s.lastKey := rfl
@[simp] theorem State.setShiftFlags_lastProbe (s : State) (f : Shift) (m r : Byte) :
    (s.setShiftFlags f m r).lastProbe = s.lastProbe := rfl
@[simp] theorem State.setShiftFlags_status (s : State) (f : Shift) (m r : Byte) :
    (s.setShiftFlags f m r).status = s.status := rfl
@[simp] theorem State.setShiftFlags_cfg (s : State) (f : Shift) (m r : Byte) :
    (s.setShiftFlags f m r).cfg = s.cfg := rfl
@[simp] theorem State.setShiftFlags_schedule (s : State) (f : Shift) (m r : Byte) :
    (s.setShiftFlags f m r).schedule = s.schedule := rfl
@[simp] theorem State.setShiftFlags_stopRequest (s : State) (f : Shift) (m r : Byte) :
    (s.setShiftFlags f m r).stopRequest = s.stopRequest := rfl
@[simp] theorem State.setShiftFlags_handlerScript (s : State) (f : Shift) (m r : Byte) :
    (s.setShiftFlags f m r).handlerScript = s.handlerScript := rfl
@[simp] theorem State.setShiftFlags_draws (s : State) (f : Shift) (m r : Byte) :
    (s.setShiftFlags f m r).draws = s.draws := rfl

/-! ### Writing a cell -/

@[simp] theorem State.rawWrite_pc (s : State) (a : Word) (v : Byte) : (s.rawWrite a v).pc = s.pc := rfl
@[simp] theorem State.rawWrite_sp (s : State) (a : Word) (v : Byte) : (s.rawWrite a v).sp = s.sp := rfl
@[simp] theorem State.rawWrite_a (s : State) (a : Word) (v : Byte) : (s.rawWrite a v).a = s.a := rfl
@[simp] theorem State.rawWrite_x (s : State) (a : Word) (v : Byte) : (s.rawWrite a v).x = s.x := rfl
@[simp] theorem State.rawWrite_y (s : State) (a : Word) (v : Byte) : (s.rawWrite a v).y = s.y := rfl
@[simp] theorem State.rawWrite_p (s : State) (a : Word) (v : Byte) : (s.rawWrite a v).p = s.p := rfl
@[simp] theorem State.rawWrite_mem (s : State) (a : Word) (v : Byte) :
    (s.rawWrite a v).mem = Memory.write s.mem a.toNat v := rfl
@[simp] theorem State.rawWrite_pending (s : State) (a : Word) (v : Byte) : (s.rawWrite a v).pending = s.pending := rfl
@[simp] theorem State.rawWrite_notified (s : State) (a : Word) (v : Byte) :
    (s.rawWrite a v).notified = s.notified := rfl
@[simp] theorem State.rawWrite_enable (s : State) (a : Word) (v : Byte) : (s.rawWrite a v).enable = s.enable := rfl
@[simp] theorem State.rawWrite_autoscan (s : State) (a : Word) (v : Byte) :
    (s.rawWrite a v).autoscan = s.autoscan := rfl
@[simp] theorem State.rawWrite_ddra (s : State) (a : Word) (v : Byte) : (s.rawWrite a v).ddra = s.ddra := rfl
@[simp] theorem State.rawWrite_lastKey (s : State) (a : Word) (v : Byte) : (s.rawWrite a v).lastKey = s.lastKey := rfl
@[simp] theorem State.rawWrite_lastProbe (s : State) (a : Word) (v : Byte) :
    (s.rawWrite a v).lastProbe = s.lastProbe := rfl
@[simp] theorem State.rawWrite_status (s : State) (a : Word) (v : Byte) : (s.rawWrite a v).status = s.status := rfl
@[simp] theorem State.rawWrite_cfg (s : State) (a : Word) (v : Byte) : (s.rawWrite a v).cfg = s.cfg := rfl
@[simp] theorem State.rawWrite_schedule (s : State) (a : Word) (v : Byte) :
    (s.rawWrite a v).schedule = s.schedule := rfl
@[simp] theorem State.rawWrite_stopRequest (s : State) (a : Word) (v : Byte) :
    (s.rawWrite a v).stopRequest = s.stopRequest := rfl
@[simp] theorem State.rawWrite_handlerScript (s : State) (a : Word) (v : Byte) :
    (s.rawWrite a v).handlerScript = s.handlerScript := rfl
@[simp] theorem State.rawWrite_draws (s : State) (a : Word) (v : Byte) : (s.rawWrite a v).draws = s.draws := rfl

/-! ### The PC advance -/

@[simp] theorem State.advance_pc (s : State) (n : Nat) : (s.advance n).pc = s.pc + BitVec.ofNat 16 n := rfl
@[simp] theorem State.advance_sp (s : State) (n : Nat) : (s.advance n).sp = s.sp := rfl
@[simp] theorem State.advance_a (s : State) (n : Nat) : (s.advance n).a = s.a := rfl
@[simp] theorem State.advance_x (s : State) (n : Nat) : (s.advance n).x = s.x := rfl
@[simp] theorem State.advance_y (s : State) (n : Nat) : (s.advance n).y = s.y := rfl
@[simp] theorem State.advance_p (s : State) (n : Nat) : (s.advance n).p = s.p := rfl
@[simp] theorem State.advance_mem (s : State) (n : Nat) : (s.advance n).mem = s.mem := rfl
@[simp] theorem State.advance_pending (s : State) (n : Nat) : (s.advance n).pending = s.pending := rfl
@[simp] theorem State.advance_notified (s : State) (n : Nat) : (s.advance n).notified = s.notified := rfl
@[simp] theorem State.advance_enable (s : State) (n : Nat) : (s.advance n).enable = s.enable := rfl
@[simp] theorem State.advance_autoscan (s : State) (n : Nat) : (s.advance n).autoscan = s.autoscan := rfl
@[simp] theorem State.advance_ddra (s : State) (n : Nat) : (s.advance n).ddra = s.ddra := rfl
@[simp] theorem State.advance_lastKey (s : State) (n : Nat) : (s.advance n).lastKey = s.lastKey := rfl
@[simp] theorem State.advance_lastProbe (s : State) (n : Nat) : (s.advance n).lastProbe = s.lastProbe := rfl
@[simp] theorem State.advance_status (s : State) (n : Nat) : (s.advance n).status = s.status := rfl
@[simp] theorem State.advance_cfg (s : State) (n : Nat) : (s.advance n).cfg = s.cfg := rfl
@[simp] theorem State.advance_schedule (s : State) (n : Nat) : (s.advance n).schedule = s.schedule := rfl
@[simp] theorem State.advance_stopRequest (s : State) (n : Nat) : (s.advance n).stopRequest = s.stopRequest := rfl
@[simp] theorem State.advance_handlerScript (s : State) (n : Nat) :
    (s.advance n).handlerScript = s.handlerScript := rfl
@[simp] theorem State.advance_draws (s : State) (n : Nat) : (s.advance n).draws = s.draws := rfl

/-! ### Writing PC -/

@[simp] theorem State.jump_pc (s : State) (t : Word) : (s.jump t).pc = t := rfl
@[simp] theorem State.jump_sp (s : State) (t : Word) : (s.jump t).sp = s.sp := rfl
@[simp] theorem State.jump_a (s : State) (t : Word) : (s.jump t).a = s.a := rfl
@[simp] theorem State.jump_x (s : State) (t : Word) : (s.jump t).x = s.x := rfl
@[simp] theorem State.jump_y (s : State) (t : Word) : (s.jump t).y = s.y := rfl
@[simp] theorem State.jump_p (s : State) (t : Word) : (s.jump t).p = s.p := rfl
@[simp] theorem State.jump_mem (s : State) (t : Word) : (s.jump t).mem = s.mem := rfl
@[simp] theorem State.jump_pending (s : State) (t : Word) : (s.jump t).pending = s.pending := rfl
@[simp] theorem State.jump_notified (s : State) (t : Word) : (s.jump t).notified = s.notified := rfl
@[simp] theorem State.jump_enable (s : State) (t : Word) : (s.jump t).enable = s.enable := rfl
@[simp] theorem State.jump_autoscan (s : State) (t : Word) : (s.jump t).autoscan = s.autoscan := rfl
@[simp] theorem State.jump_ddra (s : State) (t : Word) : (s.jump t).ddra = s.ddra := rfl
@[simp] theorem State.jump_lastKey (s : State) (t : Word) : (s.jump t).lastKey = s.lastKey := rfl
@[simp] theorem State.jump_lastProbe (s : State) (t : Word) : (s.jump t).lastProbe = s.lastProbe := rfl
@[simp] theorem State.jump_status (s : State) (t : Word) : (s.jump t).status = s.status := rfl
@[simp] theorem State.jump_cfg (s : State) (t : Word) : (s.jump t).cfg = s.cfg := rfl
@[simp] theorem State.jump_schedule (s : State) (t : Word) : (s.jump t).schedule = s.schedule := rfl
@[simp] theorem State.jump_stopRequest (s : State) (t : Word) : (s.jump t).stopRequest = s.stopRequest := rfl
@[simp] theorem State.jump_handlerScript (s : State) (t : Word) : (s.jump t).handlerScript = s.handlerScript := rfl
@[simp] theorem State.jump_draws (s : State) (t : Word) : (s.jump t).draws = s.draws := rfl

/-! ### A push -/

@[simp] theorem State.push_pc (s : State) (v : Byte) : (s.push v).pc = s.pc := rfl
@[simp] theorem State.push_sp (s : State) (v : Byte) : (s.push v).sp = s.sp - 1 := rfl
@[simp] theorem State.push_a (s : State) (v : Byte) : (s.push v).a = s.a := rfl
@[simp] theorem State.push_x (s : State) (v : Byte) : (s.push v).x = s.x := rfl
@[simp] theorem State.push_y (s : State) (v : Byte) : (s.push v).y = s.y := rfl
@[simp] theorem State.push_p (s : State) (v : Byte) : (s.push v).p = s.p := rfl
@[simp] theorem State.push_mem (s : State) (v : Byte) :
    (s.push v).mem = Memory.write s.mem (stackAddr s.sp).toNat v := rfl
@[simp] theorem State.push_pending (s : State) (v : Byte) : (s.push v).pending = s.pending := rfl
@[simp] theorem State.push_notified (s : State) (v : Byte) : (s.push v).notified = s.notified := rfl
@[simp] theorem State.push_enable (s : State) (v : Byte) : (s.push v).enable = s.enable := rfl
@[simp] theorem State.push_autoscan (s : State) (v : Byte) : (s.push v).autoscan = s.autoscan := rfl
@[simp] theorem State.push_ddra (s : State) (v : Byte) : (s.push v).ddra = s.ddra := rfl
@[simp] theorem State.push_lastKey (s : State) (v : Byte) : (s.push v).lastKey = s.lastKey := rfl
@[simp] theorem State.push_lastProbe (s : State) (v : Byte) : (s.push v).lastProbe = s.lastProbe := rfl
@[simp] theorem State.push_status (s : State) (v : Byte) : (s.push v).status = s.status := rfl
@[simp] theorem State.push_cfg (s : State) (v : Byte) : (s.push v).cfg = s.cfg := rfl
@[simp] theorem State.push_schedule (s : State) (v : Byte) : (s.push v).schedule = s.schedule := rfl
@[simp] theorem State.push_stopRequest (s : State) (v : Byte) : (s.push v).stopRequest = s.stopRequest := rfl
@[simp] theorem State.push_handlerScript (s : State) (v : Byte) : (s.push v).handlerScript = s.handlerScript := rfl
@[simp] theorem State.push_draws (s : State) (v : Byte) : (s.push v).draws = s.draws := rfl

/-! ### A pull -/

@[simp] theorem State.pull_pc (s : State) : (s.pull.2).pc = s.pc := rfl
@[simp] theorem State.pull_sp (s : State) : (s.pull.2).sp = s.sp + 1 := rfl
@[simp] theorem State.pull_a (s : State) : (s.pull.2).a = s.a := rfl
@[simp] theorem State.pull_x (s : State) : (s.pull.2).x = s.x := rfl
@[simp] theorem State.pull_y (s : State) : (s.pull.2).y = s.y := rfl
@[simp] theorem State.pull_p (s : State) : (s.pull.2).p = s.p := rfl
@[simp] theorem State.pull_mem (s : State) : (s.pull.2).mem = s.mem := rfl
@[simp] theorem State.pull_pending (s : State) : (s.pull.2).pending = s.pending := rfl
@[simp] theorem State.pull_notified (s : State) : (s.pull.2).notified = s.notified := rfl
@[simp] theorem State.pull_enable (s : State) : (s.pull.2).enable = s.enable := rfl
@[simp] theorem State.pull_autoscan (s : State) : (s.pull.2).autoscan = s.autoscan := rfl
@[simp] theorem State.pull_ddra (s : State) : (s.pull.2).ddra = s.ddra := rfl
@[simp] theorem State.pull_lastKey (s : State) : (s.pull.2).lastKey = s.lastKey := rfl
@[simp] theorem State.pull_lastProbe (s : State) : (s.pull.2).lastProbe = s.lastProbe := rfl
@[simp] theorem State.pull_status (s : State) : (s.pull.2).status = s.status := rfl
@[simp] theorem State.pull_cfg (s : State) : (s.pull.2).cfg = s.cfg := rfl
@[simp] theorem State.pull_schedule (s : State) : (s.pull.2).schedule = s.schedule := rfl
@[simp] theorem State.pull_stopRequest (s : State) : (s.pull.2).stopRequest = s.stopRequest := rfl
@[simp] theorem State.pull_handlerScript (s : State) : (s.pull.2).handlerScript = s.handlerScript := rfl
@[simp] theorem State.pull_draws (s : State) : (s.pull.2).draws = s.draws := rfl

end Sys2Proof.Machine
end

