-- ==== Sys2Proof/Laws/Bus.lean ====
section
/-! SUPPORT. What the hooks and the agents can do: an interleaving point changes the agents' fields alone, a hooked read
only the counter of free values, a hooked write the cell and the VIA's fields. -/

namespace Sys2Proof.Machine

/-- A source's mask has its one bit (R415). -/
@[simp] theorem sourceMask_getLsbD (k j : Fin 7) : (sourceMask k).getLsbD j.val = decide (j = k) := by
  revert k j; decide

/-- A bit's mask has that bit alone. -/
@[simp] theorem bitMask_getLsbD (k j : Fin 8) : (bitMask k).getLsbD j.val = decide (j = k) := by
  revert k j; decide

/-- The fields an agent step may write, blanked (R79, R445, R452). -/
def State.blankAgents (s : State) : State :=
  { s with pending := 0, notified := 0, lastKey := none, schedule := .quiet, stopRequest := false }

theorem State.blankAgents_agentStep (s : State) (g : AgentStep) : (s.agentStep g).blankAgents = s.blankAgents := by
  cases g with
  | fire src => simp only [State.agentStep, State.fire]; split <;> rfl
  | keyDown k => rfl
  | keyUp => rfl
  | hostStop => rfl

theorem State.blankAgents_slot (slot : List AgentStep) (s : State) :
    (slot.foldl State.agentStep s).blankAgents = s.blankAgents := by
  induction slot generalizing s with
  | nil => rfl
  | cons g rest ih => rw [List.foldl_cons, ih, State.blankAgents_agentStep]

/-- An interleaving point changes nothing but the agents' fields (R79, R453). -/
theorem State.blankAgents_interleave (s : State) : s.interleave.blankAgents = s.blankAgents := by
  unfold State.interleave
  split
  · rfl
  · exact State.blankAgents_slot _ _
  · exact State.blankAgents_slot _ _

@[simp] theorem State.interleave_pc (s : State) :
    (s.interleave).pc = s.pc := (congrArg State.pc s.blankAgents_interleave :)
@[simp] theorem State.interleave_sp (s : State) :
    (s.interleave).sp = s.sp := (congrArg State.sp s.blankAgents_interleave :)
@[simp] theorem State.interleave_a (s : State) :
    (s.interleave).a = s.a := (congrArg State.a s.blankAgents_interleave :)
@[simp] theorem State.interleave_x (s : State) :
    (s.interleave).x = s.x := (congrArg State.x s.blankAgents_interleave :)
@[simp] theorem State.interleave_y (s : State) :
    (s.interleave).y = s.y := (congrArg State.y s.blankAgents_interleave :)
@[simp] theorem State.interleave_p (s : State) :
    (s.interleave).p = s.p := (congrArg State.p s.blankAgents_interleave :)
@[simp] theorem State.interleave_mem (s : State) :
    (s.interleave).mem = s.mem := (congrArg State.mem s.blankAgents_interleave :)
@[simp] theorem State.interleave_enable (s : State) :
    (s.interleave).enable = s.enable := (congrArg State.enable s.blankAgents_interleave :)
@[simp] theorem State.interleave_autoscan (s : State) :
    (s.interleave).autoscan = s.autoscan := (congrArg State.autoscan s.blankAgents_interleave :)
@[simp] theorem State.interleave_ddra (s : State) :
    (s.interleave).ddra = s.ddra := (congrArg State.ddra s.blankAgents_interleave :)
@[simp] theorem State.interleave_lastProbe (s : State) :
    (s.interleave).lastProbe = s.lastProbe := (congrArg State.lastProbe s.blankAgents_interleave :)
@[simp] theorem State.interleave_status (s : State) :
    (s.interleave).status = s.status := (congrArg State.status s.blankAgents_interleave :)
@[simp] theorem State.interleave_cfg (s : State) :
    (s.interleave).cfg = s.cfg := (congrArg State.cfg s.blankAgents_interleave :)
@[simp] theorem State.interleave_handlerScript (s : State) :
    (s.interleave).handlerScript = s.handlerScript := (congrArg State.handlerScript s.blankAgents_interleave :)
@[simp] theorem State.interleave_draws (s : State) :
    (s.interleave).draws = s.draws := (congrArg State.draws s.blankAgents_interleave :)

/-- What an agent step reads or writes: the enabled sources, the sources' bits, and the agents' own fields. -/
def State.agents (s : State) : BitVec 7 × BitVec 7 × BitVec 7 × Option (BitVec 7) × Schedule × Bool × Config :=
  (s.enable, s.pending, s.notified, s.lastKey, s.schedule, s.stopRequest, s.cfg)

theorem State.agents_agentStep {s t : State} (h : s.agents = t.agents) (g : AgentStep) :
    (s.agentStep g).agents = (t.agentStep g).agents := by
  simp only [State.agents, Prod.mk.injEq] at h
  obtain ⟨h1, h2, h3, h4, h5, h6, h7⟩ := h
  cases g with
  | fire src =>
    simp only [State.agentStep, State.fire, h1, h7]
    split <;> simp only [State.agents, h1, h2, h3, h4, h5, h6, h7]
  | keyDown k => simp only [State.agentStep, State.agents, h1, h2, h3, h5, h6, h7]
  | keyUp => simp only [State.agentStep, State.agents, h1, h2, h3, h5, h6, h7]
  | hostStop => simp only [State.agentStep, State.agents, h1, h2, h3, h4, h5, h7]

theorem State.agents_slot {s t : State} (h : s.agents = t.agents) (slot : List AgentStep) :
    (slot.foldl State.agentStep s).agents = (slot.foldl State.agentStep t).agents := by
  induction slot generalizing s t with
  | nil => exact h
  | cons g rest ih => exact ih (State.agents_agentStep h g)

/-- What an interleaving point does to the agents' fields depends on those fields alone. -/
theorem State.agents_interleave {s t : State} (h : s.agents = t.agents) : s.interleave.agents = t.interleave.agents := by
  have h' := h
  simp only [State.agents, Prod.mk.injEq] at h
  obtain ⟨h1, h2, h3, h4, h5, h6, h7⟩ := h
  unfold State.interleave
  rw [← h5]
  split
  · exact h'
  · exact State.agents_slot (by simp only [State.agents, h1, h2, h3, h4, h6, h7]) _
  · exact State.agents_slot (by simp only [State.agents, h1, h2, h3, h4, h6, h7]) _

/-- An agent's steps leave the schedule as it is; the interleaving point moves it on. -/
theorem State.schedule_slot (slot : List AgentStep) (s : State) :
    (slot.foldl State.agentStep s).schedule = s.schedule := by
  induction slot generalizing s with
  | nil => rfl
  | cons g rest ih =>
    rw [List.foldl_cons, ih]
    cases g with
    | fire src => simp only [State.agentStep, State.fire]; split <;> rfl
    | keyDown k => rfl
    | keyUp => rfl
    | hostStop => rfl

/-- Under a quiet schedule an interleaving point does nothing. -/
theorem State.interleave_quiet {s : State} (h : s.schedule = .quiet) : s.interleave = s := by
  unfold State.interleave
  rw [h]

/-- The fields a write hook may write, blanked (R430). -/
def State.blankVia (s : State) : State :=
  { s with pending := 0, notified := 0, enable := 0, autoscan := false, ddra := 0, lastProbe := 0 }

/-- A register's action, if it keeps a reading of the state, keeps it wherever the write goes. -/
theorem State.atRegister_keeps {α : Type} (f : State → α) {action : State → State} (h : ∀ t, f (action t) = f t)
    (addr reg : Word) (s : State) : f (s.atRegister addr reg action) = f s := by
  unfold State.atRegister
  split
  · exact h s
  · rfl

/-- What every register's action keeps, a write at any address keeps (R430). -/
theorem State.viaWrite_keeps {α : Type} (f : State → α) (v : Byte) (horb : ∀ t : State, f (t.orbWrite v) = f t)
    (hddra : ∀ t : State, f (t.ddraWrite v) = f t) (hifr : ∀ t : State, f (t.ifrWrite v) = f t)
    (hier : ∀ t : State, f (t.ierWrite v) = f t) (hkbd : ∀ t : State, f (t.kbdWrite v) = f t) (a : Word) (s : State) :
    f (s.viaWrite v a) = f s :=
  (State.atRegister_keeps f hkbd _ _ _).trans <| (State.atRegister_keeps f hier _ _ _).trans <|
    (State.atRegister_keeps f hifr _ _ _).trans <| (State.atRegister_keeps f hddra _ _ _).trans <|
    State.atRegister_keeps f horb _ _ _

theorem State.blankVia_viaWrite (v : Byte) (a : Word) (s : State) : (s.viaWrite v a).blankVia = s.blankVia :=
  State.viaWrite_keeps State.blankVia v (fun _ => rfl) (fun _ => rfl)
    (fun t => by unfold State.ifrWrite; split <;> rfl) (fun t => by unfold State.ierWrite; split <;> rfl) (fun _ => rfl) a s

theorem State.blankVia_runWriteHooks (hs : List Hook) (v old : Byte) (a : Word) (s : State) :
    (runWriteHooks hs v old a s).blankVia = s.blankVia := by
  induction hs generalizing s with
  | nil => rfl
  | cons h rest ih => cases h; rw [runWriteHooks, ih]; exact State.blankVia_viaWrite v a s

/-- A hooked write changes the cell and the VIA's fields, nothing else (R63, R430). -/
theorem State.blankVia_memWrite (a : Word) (v : Byte) (s : State) :
    (s.memWrite a v).blankVia = (s.rawWrite a v).blankVia := State.blankVia_runWriteHooks _ _ _ _ _

@[simp] theorem State.memWrite_pc (a : Word) (v : Byte) (s : State) :
    (s.memWrite a v).pc = s.pc := (congrArg State.pc (s.blankVia_memWrite a v) :)
@[simp] theorem State.memWrite_sp (a : Word) (v : Byte) (s : State) :
    (s.memWrite a v).sp = s.sp := (congrArg State.sp (s.blankVia_memWrite a v) :)
@[simp] theorem State.memWrite_a (a : Word) (v : Byte) (s : State) :
    (s.memWrite a v).a = s.a := (congrArg State.a (s.blankVia_memWrite a v) :)
@[simp] theorem State.memWrite_x (a : Word) (v : Byte) (s : State) :
    (s.memWrite a v).x = s.x := (congrArg State.x (s.blankVia_memWrite a v) :)
@[simp] theorem State.memWrite_y (a : Word) (v : Byte) (s : State) :
    (s.memWrite a v).y = s.y := (congrArg State.y (s.blankVia_memWrite a v) :)
@[simp] theorem State.memWrite_p (a : Word) (v : Byte) (s : State) :
    (s.memWrite a v).p = s.p := (congrArg State.p (s.blankVia_memWrite a v) :)
@[simp] theorem State.memWrite_mem (a : Word) (v : Byte) (s : State) :
    (s.memWrite a v).mem = Memory.write s.mem a.toNat v := (congrArg State.mem (s.blankVia_memWrite a v) :)
@[simp] theorem State.memWrite_lastKey (a : Word) (v : Byte) (s : State) :
    (s.memWrite a v).lastKey = s.lastKey := (congrArg State.lastKey (s.blankVia_memWrite a v) :)
@[simp] theorem State.memWrite_status (a : Word) (v : Byte) (s : State) :
    (s.memWrite a v).status = s.status := (congrArg State.status (s.blankVia_memWrite a v) :)
@[simp] theorem State.memWrite_cfg (a : Word) (v : Byte) (s : State) :
    (s.memWrite a v).cfg = s.cfg := (congrArg State.cfg (s.blankVia_memWrite a v) :)
@[simp] theorem State.memWrite_schedule (a : Word) (v : Byte) (s : State) :
    (s.memWrite a v).schedule = s.schedule := (congrArg State.schedule (s.blankVia_memWrite a v) :)
@[simp] theorem State.memWrite_stopRequest (a : Word) (v : Byte) (s : State) :
    (s.memWrite a v).stopRequest = s.stopRequest := (congrArg State.stopRequest (s.blankVia_memWrite a v) :)
@[simp] theorem State.memWrite_handlerScript (a : Word) (v : Byte) (s : State) :
    (s.memWrite a v).handlerScript = s.handlerScript := (congrArg State.handlerScript (s.blankVia_memWrite a v) :)
@[simp] theorem State.memWrite_draws (a : Word) (v : Byte) (s : State) :
    (s.memWrite a v).draws = s.draws := (congrArg State.draws (s.blankVia_memWrite a v) :)

/-- What the VIA's write hook reads or writes (R430). -/
def State.via (s : State) : BitVec 7 × BitVec 7 × BitVec 7 × Bool × Byte × Byte × Config :=
  (s.pending, s.notified, s.enable, s.autoscan, s.ddra, s.lastProbe, s.cfg)

theorem State.via_orbWrite {s t : State} (h : s.via = t.via) (v : Byte) : (s.orbWrite v).via = (t.orbWrite v).via := by
  simp only [State.via, Prod.mk.injEq] at h
  simp only [State.via, State.orbWrite, h]

theorem State.via_ddraWrite {s t : State} (h : s.via = t.via) (v : Byte) : (s.ddraWrite v).via = (t.ddraWrite v).via := by
  simp only [State.via, Prod.mk.injEq] at h
  simp only [State.via, State.ddraWrite, h]

theorem State.via_kbdWrite {s t : State} (h : s.via = t.via) (v : Byte) : (s.kbdWrite v).via = (t.kbdWrite v).via := by
  simp only [State.via, Prod.mk.injEq] at h
  simp only [State.via, State.kbdWrite, h]

theorem State.via_ifrWrite {s t : State} (h : s.via = t.via) (v : Byte) : (s.ifrWrite v).via = (t.ifrWrite v).via := by
  unfold State.ifrWrite
  split
  · exact h
  · simp only [State.via, Prod.mk.injEq] at h
    simp only [State.via, h]

theorem State.via_ierWrite {s t : State} (h : s.via = t.via) (v : Byte) : (s.ierWrite v).via = (t.ierWrite v).via := by
  simp only [State.via, Prod.mk.injEq] at h
  unfold State.ierWrite
  split <;> simp only [State.via, h]

theorem State.via_atRegister {s t : State} (h : s.via = t.via) {action : State → State}
    (ha : ∀ {p q : State}, p.via = q.via → (action p).via = (action q).via) (addr reg : Word) :
    (s.atRegister addr reg action).via = (t.atRegister addr reg action).via := by
  unfold State.atRegister
  split
  · exact ha h
  · exact h

/-- What a VIA write does to the VIA's fields depends on those fields alone. -/
theorem State.via_viaWrite {s t : State} (h : s.via = t.via) (v : Byte) (a : Word) :
    (s.viaWrite v a).via = (t.viaWrite v a).via := by
  have hc : s.cfg = t.cfg := (congrArg (fun q => q.2.2.2.2.2.2) h :)
  unfold State.viaWrite
  rw [hc]
  exact State.via_atRegister (State.via_atRegister (State.via_atRegister (State.via_atRegister (State.via_atRegister h
    (State.via_orbWrite · v) _ _) (State.via_ddraWrite · v) _ _) (State.via_ifrWrite · v) _ _) (State.via_ierWrite · v) _ _)
    (State.via_kbdWrite · v) _ _

/-- The counter of free values, blanked. -/
def State.blankDraws (s : State) : State := { s with draws := 0 }

theorem State.blankDraws_fallback (s : State) : s.fallback.2.blankDraws = s.blankDraws := by
  unfold State.fallback
  split
  · rfl
  · split <;> rfl

theorem State.blankDraws_viaRead {a : Word} {s : State} {r : Byte × State} (h : s.viaRead a = some r) :
    r.2.blankDraws = s.blankDraws := by
  unfold State.viaRead at h
  split at h
  · cases h; exact s.blankDraws_fallback
  · split at h
    · cases h; rfl
    · split at h
      · cases h; rfl
      · cases h

theorem State.blankDraws_askReadHooks {hs : List Hook} {a : Word} {s : State} {r : Byte × State}
    (h : askReadHooks hs a s = some r) : r.2.blankDraws = s.blankDraws := by
  induction hs with
  | nil => cases h
  | cons k rest ih =>
    cases k
    unfold askReadHooks at h
    split at h
    · next hr => cases h; exact State.blankDraws_viaRead hr
    · exact ih h

/-- A hooked read changes nothing but the counter of free values (R74, R434). -/
theorem State.blankDraws_memRead (a : Word) (s : State) : (s.memRead a).2.blankDraws = s.blankDraws := by
  unfold State.memRead
  split
  · next h => exact State.blankDraws_askReadHooks h
  · rfl

@[simp] theorem State.memRead_pc (a : Word) (s : State) :
    ((s.memRead a).2).pc = s.pc := (congrArg State.pc (s.blankDraws_memRead a) :)
@[simp] theorem State.memRead_sp (a : Word) (s : State) :
    ((s.memRead a).2).sp = s.sp := (congrArg State.sp (s.blankDraws_memRead a) :)
@[simp] theorem State.memRead_a (a : Word) (s : State) :
    ((s.memRead a).2).a = s.a := (congrArg State.a (s.blankDraws_memRead a) :)
@[simp] theorem State.memRead_x (a : Word) (s : State) :
    ((s.memRead a).2).x = s.x := (congrArg State.x (s.blankDraws_memRead a) :)
@[simp] theorem State.memRead_y (a : Word) (s : State) :
    ((s.memRead a).2).y = s.y := (congrArg State.y (s.blankDraws_memRead a) :)
@[simp] theorem State.memRead_p (a : Word) (s : State) :
    ((s.memRead a).2).p = s.p := (congrArg State.p (s.blankDraws_memRead a) :)
@[simp] theorem State.memRead_mem (a : Word) (s : State) :
    ((s.memRead a).2).mem = s.mem := (congrArg State.mem (s.blankDraws_memRead a) :)
@[simp] theorem State.memRead_pending (a : Word) (s : State) :
    ((s.memRead a).2).pending = s.pending := (congrArg State.pending (s.blankDraws_memRead a) :)
@[simp] theorem State.memRead_notified (a : Word) (s : State) :
    ((s.memRead a).2).notified = s.notified := (congrArg State.notified (s.blankDraws_memRead a) :)
@[simp] theorem State.memRead_enable (a : Word) (s : State) :
    ((s.memRead a).2).enable = s.enable := (congrArg State.enable (s.blankDraws_memRead a) :)
@[simp] theorem State.memRead_autoscan (a : Word) (s : State) :
    ((s.memRead a).2).autoscan = s.autoscan := (congrArg State.autoscan (s.blankDraws_memRead a) :)
@[simp] theorem State.memRead_ddra (a : Word) (s : State) :
    ((s.memRead a).2).ddra = s.ddra := (congrArg State.ddra (s.blankDraws_memRead a) :)
@[simp] theorem State.memRead_lastKey (a : Word) (s : State) :
    ((s.memRead a).2).lastKey = s.lastKey := (congrArg State.lastKey (s.blankDraws_memRead a) :)
@[simp] theorem State.memRead_lastProbe (a : Word) (s : State) :
    ((s.memRead a).2).lastProbe = s.lastProbe := (congrArg State.lastProbe (s.blankDraws_memRead a) :)
@[simp] theorem State.memRead_status (a : Word) (s : State) :
    ((s.memRead a).2).status = s.status := (congrArg State.status (s.blankDraws_memRead a) :)
@[simp] theorem State.memRead_cfg (a : Word) (s : State) :
    ((s.memRead a).2).cfg = s.cfg := (congrArg State.cfg (s.blankDraws_memRead a) :)
@[simp] theorem State.memRead_schedule (a : Word) (s : State) :
    ((s.memRead a).2).schedule = s.schedule := (congrArg State.schedule (s.blankDraws_memRead a) :)
@[simp] theorem State.memRead_stopRequest (a : Word) (s : State) :
    ((s.memRead a).2).stopRequest = s.stopRequest := (congrArg State.stopRequest (s.blankDraws_memRead a) :)
@[simp] theorem State.memRead_handlerScript (a : Word) (s : State) :
    ((s.memRead a).2).handlerScript = s.handlerScript := (congrArg State.handlerScript (s.blankDraws_memRead a) :)

@[simp] theorem State.memRead_agents (a : Word) (s : State) : (s.memRead a).2.agents = s.agents := by
  simp [State.agents]

theorem State.viaRead_unhooked {a : Word} {s : State} (h : a ∉ s.cfg.readRegisters) : s.viaRead a = none := by
  simp only [Config.readRegisters, List.mem_cons, List.not_mem_nil, or_false, not_or] at h
  simp [State.viaRead, h.1, h.2.1, h.2.2]

theorem askReadHooks_unhooked {a : Word} {s : State} (h : a ∉ s.cfg.readRegisters) (hs : List Hook) :
    askReadHooks hs a s = none := by
  induction hs with
  | nil => rfl
  | cons k rest ih => cases k; rw [askReadHooks, readHook, State.viaRead_unhooked h]; exact ih

/-- What the VIA's read hook reads (R430, R433, R443). -/
def State.hookInputs (s : State) : BitVec 7 × BitVec 7 × Bool × Option (BitVec 7) × Byte × Nat × Config :=
  (s.pending, s.enable, s.autoscan, s.lastKey, s.lastProbe, s.draws, s.cfg)

theorem State.viaRead_congr {s t : State} (h : s.hookInputs = t.hookInputs) (a : Word) :
    (s.viaRead a).map (fun r => (r.1, r.2.hookInputs)) = (t.viaRead a).map (fun r => (r.1, r.2.hookInputs)) := by
  obtain ⟨pc, sp, ra, x, y, p, mem, pending, notified, enable, autoscan, ddra, lastKey, lastProbe, status, cfg, schedule,
    stopRequest, handlerScript, draws⟩ := s
  obtain ⟨pc', sp', ra', x', y', p', mem', pending', notified', enable', autoscan', ddra', lastKey', lastProbe', status',
    cfg', schedule', stopRequest', handlerScript', draws'⟩ := t
  simp only [State.hookInputs, Prod.mk.injEq] at h
  obtain ⟨rfl, rfl, rfl, rfl, rfl, rfl, rfl⟩ := h
  simp only [State.viaRead, State.fallback, State.ifrByte, State.ierByte, State.matrixProbe, State.columnMatch]
  repeat' split
  all_goals rfl

theorem askReadHooks_congr {s t : State} (h : s.hookInputs = t.hookInputs) (hs : List Hook) (a : Word) :
    (askReadHooks hs a s).map (fun r => (r.1, r.2.hookInputs)) =
      (askReadHooks hs a t).map (fun r => (r.1, r.2.hookInputs)) := by
  induction hs with
  | nil => rfl
  | cons k rest ih =>
    cases k
    have e := State.viaRead_congr h a
    simp only [askReadHooks, readHook]
    cases hr : s.viaRead a <;> cases ht : t.viaRead a <;> rw [hr, ht] at e <;> simp_all

/-- A hooked read depends on the cell and on what the VIA's read hook reads, alone. -/
theorem State.memRead_congr {s t : State} (h : s.hookInputs = t.hookInputs) {a : Word} (hc : s.rawRead a = t.rawRead a) :
    (s.memRead a).1 = (t.memRead a).1 ∧ (s.memRead a).2.hookInputs = (t.memRead a).2.hookInputs := by
  have e := askReadHooks_congr h s.cfg.readHooks a
  have hg : s.cfg = t.cfg := (congrArg (fun q => q.2.2.2.2.2.2) h :)
  unfold State.memRead
  rw [hg] at e ⊢
  cases hr : askReadHooks t.cfg.readHooks a s <;> cases ht : askReadHooks t.cfg.readHooks a t <;> rw [hr, ht] at e <;>
    simp_all

/-- Where no hook answers, a read is the cell and changes nothing (R62). -/
theorem State.memRead_unhooked {a : Word} {s : State} (h : a ∉ s.cfg.readRegisters) :
    s.memRead a = (s.rawRead a, s) := by
  unfold State.memRead
  rw [askReadHooks_unhooked h]

/-- Under the VIA's hook alone, a read is the VIA's answer where it has one (R62, R430). -/
theorem State.memRead_via {s : State} (h : s.cfg.readHooks = [.via]) (a : Word) :
    s.memRead a = (s.viaRead a).getD (s.rawRead a, s) := by
  unfold State.memRead
  rw [h]
  simp only [askReadHooks, readHook]
  cases s.viaRead a <;> rfl

theorem State.viaWrite_unhooked {a : Word} {s : State} (h : a ∉ s.cfg.viaRegisters) (v : Byte) : s.viaWrite v a = s := by
  simp only [Config.viaRegisters, List.mem_cons, List.not_mem_nil, or_false, not_or] at h
  simp [State.viaWrite, State.atRegister, h]

theorem runWriteHooks_unhooked {a : Word} {s : State} (h : a ∉ s.cfg.viaRegisters) (hs : List Hook) (v old : Byte) :
    runWriteHooks hs v old a s = s := by
  induction hs with
  | nil => rfl
  | cons k rest ih => cases k; rw [runWriteHooks, writeHook, State.viaWrite_unhooked h]; exact ih

/-- Where no hook acts, a write is the cell alone (R63, R74). -/
theorem State.memWrite_unhooked {a : Word} {s : State} (h : a ∉ s.cfg.viaRegisters) (v : Byte) :
    s.memWrite a v = s.rawWrite a v := runWriteHooks_unhooked (s := s.rawWrite a v) h _ _ _

/-- Under the VIA's hook alone, a write is the cell and then the VIA's action (R63, R430). -/
theorem State.memWrite_via {s : State} (h : s.cfg.writeHooks = [.via]) (a : Word) (v : Byte) :
    s.memWrite a v = (s.rawWrite a v).viaWrite v a := by
  unfold State.memWrite
  rw [h]
  rfl

section apart
variable {s : State} (h : s.cfg.viaRegisters.Nodup) (v : Byte)
include h

/-- Where the VIA's registers have five addresses, a write at one is that register's action alone (R430). -/
theorem State.viaWrite_orb : s.viaWrite v s.cfg.viaOrb = s.orbWrite v := by
  simp only [Config.viaRegisters, List.nodup_cons, List.mem_cons, List.not_mem_nil, or_false, not_or] at h
  simp [State.viaWrite, State.atRegister, h]

theorem State.viaWrite_ddra : s.viaWrite v s.cfg.viaDdra = s.ddraWrite v := by
  simp only [Config.viaRegisters, List.nodup_cons, List.mem_cons, List.not_mem_nil, or_false, not_or] at h
  simp [State.viaWrite, State.atRegister, h, Ne.symm h.1.1]

theorem State.viaWrite_ifr : s.viaWrite v s.cfg.viaIfr = s.ifrWrite v := by
  simp only [Config.viaRegisters, List.nodup_cons, List.mem_cons, List.not_mem_nil, or_false, not_or] at h
  simp [State.viaWrite, State.atRegister, h, Ne.symm h.1.2.1, Ne.symm h.2.1.1]

theorem State.viaWrite_ier : s.viaWrite v s.cfg.viaIer = s.ierWrite v := by
  simp only [Config.viaRegisters, List.nodup_cons, List.mem_cons, List.not_mem_nil, or_false, not_or] at h
  simp [State.viaWrite, State.atRegister, h, Ne.symm h.1.2.2.1, Ne.symm h.2.1.2.1, Ne.symm h.2.2.1.1]

theorem State.viaWrite_kbd : s.viaWrite v s.cfg.viaKbd = s.kbdWrite v := by
  simp only [Config.viaRegisters, List.nodup_cons, List.mem_cons, List.not_mem_nil, or_false, not_or] at h
  simp [State.viaWrite, State.atRegister, Ne.symm h.1.2.2.2, Ne.symm h.2.1.2.2, Ne.symm h.2.2.1.2, Ne.symm h.2.2.2.1]

end apart

theorem word_toNat (hi lo : Byte) : (word hi lo).toNat = 256 * hi.toNat + lo.toNat := by
  have := lo.isLt
  unfold word
  rw [BitVec.toNat_append, Nat.shiftLeft_eq, Nat.mul_comm, ← Nat.two_pow_add_eq_or_of_lt (i := 8) this]

theorem hi8_toNat (w : Word) : (hi8 w).toNat = w.toNat / 256 := by
  have := w.isLt
  simp [hi8, BitVec.extractLsb'_toNat, Nat.shiftRight_eq_div_pow]
  omega

theorem lo8_toNat (w : Word) : (lo8 w).toNat = w.toNat % 256 := by
  simp [lo8, BitVec.extractLsb'_toNat]

/-- A word is its high byte and its low byte (R61). -/
@[simp] theorem word_hi8_lo8 (w : Word) : word (hi8 w) (lo8 w) = w := by
  apply BitVec.eq_of_toNat_eq
  rw [word_toNat, hi8_toNat, lo8_toNat]
  omega

@[simp] theorem hi8_word (hi lo : Byte) : hi8 (word hi lo) = hi := by
  have := lo.isLt
  apply BitVec.eq_of_toNat_eq
  rw [hi8_toNat, word_toNat]
  omega

@[simp] theorem lo8_word (hi lo : Byte) : lo8 (word hi lo) = lo := by
  have := lo.isLt
  apply BitVec.eq_of_toNat_eq
  rw [lo8_toNat, word_toNat]
  omega

theorem stackAddr_toNat (sp : Byte) : (stackAddr sp).toNat = 256 + sp.toNat := by
  rw [stackAddr, word_toNat]; rfl

/-- Two stack cells are the same cell only for the same S (R22). -/
theorem stackAddr_inj {p q : Byte} : stackAddr p = stackAddr q ↔ p = q := by
  constructor
  · intro h
    have := congrArg BitVec.toNat h
    rw [stackAddr_toNat, stackAddr_toNat] at this
    exact BitVec.eq_of_toNat_eq (by omega)
  · rintro rfl; rfl

theorem zext16_toNat (v : Byte) : (zext16 v).toNat = v.toNat := by
  have := v.isLt
  simp [zext16]
  omega

/-- A cell after a write to it or to another (R76). -/
theorem State.rawRead_rawWrite {s : State} (h : s.mem.wf = true) (a c : Word) (v : Byte) :
    (s.rawWrite a v).rawRead c = if c = a then v else s.rawRead c := by
  split
  · next hc => subst hc; exact Memory.read_write_same h
  · next hc => exact Memory.read_write_other h fun hn => hc (BitVec.eq_of_toNat_eq hn)

theorem State.wf_rawWrite {s : State} (h : s.mem.wf = true) (a : Word) (v : Byte) : (s.rawWrite a v).mem.wf = true :=
  Memory.wf_write h a.isLt

theorem State.wf_memWrite {s : State} (h : s.mem.wf = true) (a : Word) (v : Byte) : (s.memWrite a v).mem.wf = true := by
  rw [State.memWrite_mem]; exact Memory.wf_write h a.isLt

/-- States with the same cells read alike. -/
theorem State.rawRead_congr {s t : State} (h : s.mem = t.mem) (a : Word) : s.rawRead a = t.rawRead a := by
  unfold State.rawRead; rw [h]

/-- A cell after a hooked write: the hooks alter no cell (R63). -/
theorem State.rawRead_memWrite {s : State} (h : s.mem.wf = true) (a c : Word) (v : Byte) :
    (s.memWrite a v).rawRead c = if c = a then v else s.rawRead c := by
  rw [State.rawRead_congr (t := s.rawWrite a v) (by simp) c, State.rawRead_rawWrite h]

end Sys2Proof.Machine
end

