-- ==== Sys2Proof/Laws/Decode.lean ====
section
/-! SUPPORT. The decoder row by row: what a row makes of bytes encodes back to them, and what a lookup answers. -/

namespace Sys2Proof

/-- What a row makes of the bytes after its opcode byte encodes back to the opcode byte and those bytes. -/
def Row.Sound (r : Row) : Prop :=
  ∀ (bytes rest : List Byte) (i : Instr), r.make bytes = .ok (i, rest) → encode i ++ rest = r.opcode :: bytes

theorem Row.sound_f0 {op : Byte} {m : Mnemonic} {md : Mode} {i : Instr} (h : encode i = [op]) :
    Row.Sound ⟨op, m, md, .f0 i⟩ := by
  intro bytes rest j hj
  cases hj
  rw [h]
  rfl

theorem Row.sound_f1 {op : Byte} {m : Mnemonic} {md : Mode} {f : Byte → Instr} (h : ∀ b, encode (f b) = [op, b]) :
    Row.Sound ⟨op, m, md, .f1 f⟩ := by
  intro bytes rest j hj
  rcases bytes with _ | ⟨b, bytes⟩ <;> cases hj
  rw [h]
  rfl

theorem Row.sound_f2 {op : Byte} {m : Mnemonic} {md : Mode} {f : Word → Instr}
    (h : ∀ w, encode (f w) = [op, lo8 w, hi8 w]) : Row.Sound ⟨op, m, md, .f2 f⟩ := by
  intro bytes rest j hj
  rcases bytes with _ | ⟨b, _ | ⟨c, bytes⟩⟩ <;> cases hj
  rw [h, Machine.lo8_word, Machine.hi8_word]
  rfl

theorem rows0_sound : ∀ r ∈ rows0, r.Sound := by
  simp only [rows0, List.forall_mem_cons]
  repeat' apply And.intro
  all_goals first
    | exact Row.sound_f0 rfl
    | exact Row.sound_f1 fun _ => rfl
    | exact Row.sound_f2 fun _ => rfl
    | simp

theorem rows4_sound : ∀ r ∈ rows4, r.Sound := by
  simp only [rows4, List.forall_mem_cons]
  repeat' apply And.intro
  all_goals first
    | exact Row.sound_f0 rfl
    | exact Row.sound_f1 fun _ => rfl
    | exact Row.sound_f2 fun _ => rfl
    | simp

theorem rows8_sound : ∀ r ∈ rows8, r.Sound := by
  simp only [rows8, List.forall_mem_cons]
  repeat' apply And.intro
  all_goals first
    | exact Row.sound_f0 rfl
    | exact Row.sound_f1 fun _ => rfl
    | exact Row.sound_f2 fun _ => rfl
    | simp

theorem rowsC_sound : ∀ r ∈ rowsC, r.Sound := by
  simp only [rowsC, List.forall_mem_cons]
  repeat' apply And.intro
  all_goals first
    | exact Row.sound_f0 rfl
    | exact Row.sound_f1 fun _ => rfl
    | exact Row.sound_f2 fun _ => rfl
    | simp

/-- Every row of the decoder table agrees with the encoder (R101, R105). -/
theorem decoderTable_sound : ∀ r ∈ decoderTable, r.Sound := by
  intro r hr
  simp only [decoderTable, List.mem_append] at hr
  rcases hr with ((h | h) | h) | h
  · exact rows0_sound r h
  · exact rows4_sound r h
  · exact rows8_sound r h
  · exact rowsC_sound r h

/-- A lookup answers the row whose opcode byte it was asked for. -/
theorem lookup_some {op : Byte} {r : Row} (h : lookup op = some r) : r ∈ decoderTable ∧ r.opcode = op :=
  ⟨List.mem_of_find?_eq_some h, by simpa using List.find?_some h⟩

/-- How many bytes after the opcode byte a format takes (R101). -/
def Format.arity : Format → Nat
  | .f0 _ => 0
  | .f1 _ => 1
  | .f2 _ => 2

/-- Every row's format takes the operand bytes of its mode (R100). -/
theorem decoderTable_arity : ∀ r ∈ decoderTable, r.format.arity = r.mode.operandLength := by decide +kernel

/-- A row's refusal is the truncation of its operand (R100). -/
theorem Row.make_error {r : Row} {bytes : List Byte} {e : Reject} (h : r.make bytes = .error e) :
    e = .truncated r.opcode := by
  obtain ⟨op, m, md, f⟩ := r
  cases f with
  | f0 i => cases h
  | f1 f => rcases bytes with _ | ⟨b, bytes⟩ <;> cases h; rfl
  | f2 f => rcases bytes with _ | ⟨b, _ | ⟨c, bytes⟩⟩ <;> cases h <;> rfl

end Sys2Proof
end

