-- ==== Sys2Proof/Laws/Flags.lean ====
section
/-! SUPPORT. What the flag operations do, flag by flag, and the arithmetic laws in integers. -/

namespace Sys2Proof.Machine

theorem Flag.bit_lt (f : Flag) : f.bit < 8 := by cases f <;> decide

theorem Flag.bit_inj {f g : Flag} (h : f.bit = g.bit) : f = g := by
  cases f <;> cases g <;> first | rfl | (simp [Flag.bit] at h)

theorem Flag.getLsbD_mask (f : Flag) (k : Nat) : f.mask.getLsbD k = decide (k = f.bit) := by
  have := f.bit_lt
  simp only [Flag.mask, BitVec.getLsbD_shiftLeft, BitVec.getLsbD_one]
  by_cases h : k = f.bit
  · subst h; simp; omega
  · simp [h]; omega

/-- Setting or resetting one flag sets that bit and leaves the other seven. -/
theorem Flag.getLsbD_put (f : Flag) (v : Bool) (p : Byte) (k : Nat) (hk : k < 8) :
    (f.put v p).getLsbD k = if k = f.bit then v else p.getLsbD k := by
  have hm := Flag.getLsbD_mask f k
  unfold Flag.put
  cases v
  · rw [if_neg Bool.false_ne_true, BitVec.getLsbD_and, BitVec.getLsbD_not, hm]
    by_cases h : k = f.bit <;> simp only [h, if_true, if_false, decide_true, decide_false, hk, Bool.not_true,
      Bool.not_false, Bool.and_false, Bool.and_true, f.bit_lt]
  · rw [if_pos rfl, BitVec.getLsbD_or, hm]
    by_cases h : k = f.bit <;> simp only [h, if_true, if_false, decide_true, decide_false, Bool.or_true, Bool.or_false]

/-- A flag after one flag is set or reset. -/
@[simp] theorem Flag.test_put (f g : Flag) (v : Bool) (p : Byte) :
    f.test (g.put v p) = if f = g then v else f.test p := by
  unfold Flag.test
  rw [Flag.getLsbD_put g v p f.bit f.bit_lt]
  by_cases h : f = g
  · subst h; simp
  · have hb : f.bit ≠ g.bit := fun hb => h (Flag.bit_inj hb)
    rw [if_neg hb, if_neg h]

/-- Status bytes with the same eight flags are equal. -/
theorem Flag.ext {p q : Byte} (h : ∀ f : Flag, f.test p = f.test q) : p = q := by
  apply BitVec.eq_of_getLsbD_eq
  intro i hi
  have hc : i = 0 ∨ i = 1 ∨ i = 2 ∨ i = 3 ∨ i = 4 ∨ i = 5 ∨ i = 6 ∨ i = 7 := by omega
  rcases hc with rfl | rfl | rfl | rfl | rfl | rfl | rfl | rfl
  · exact h .c
  · exact h .z
  · exact h .i
  · exact h .d
  · exact h .b
  · exact h .r
  · exact h .v
  · exact h .n

@[simp] theorem State.flag_setFlag (f g : Flag) (v : Bool) (s : State) :
    (s.setFlag g v).flag f = if f = g then v else s.flag f := Flag.test_put f g v s.p

@[simp] theorem State.flag_setFlags (f : Flag) (v : Byte) (s : State) : (s.setFlags v).flag f = f.test v := rfl

/-- Z and N from a byte; the other flags as before (R27). -/
@[simp] theorem State.flag_setZN (f : Flag) (v : Byte) (s : State) :
    (s.setZN v).flag f = if f = .n then v.msb else if f = .z then v == 0 else s.flag f := by
  simp [State.setZN]

/-- C, V, Z and N from a sum; the other flags as before (R223, R224). -/
@[simp] theorem State.flag_setSumFlags (f : Flag) (r : Sum) (s : State) :
    (s.setSumFlags r).flag f =
      if f = .n then r.result.msb else if f = .z then r.result == 0 else if f = .v then r.overflow
      else if f = .c then r.carry else s.flag f := by
  simp [State.setSumFlags]

/-- C, Z and N from a comparison; the other flags as before (R225). -/
@[simp] theorem State.flag_compare (f : Flag) (r m : Byte) (s : State) :
    (s.compare r m).flag f =
      if f = .n then (r - m).msb else if f = .z then r - m == 0 else if f = .c then decide (m.toNat ≤ r.toNat)
      else s.flag f := by
  simp [State.compare]

/-- Z, N and V from BIT's operand; the other flags as before (R263). -/
@[simp] theorem State.flag_bitTest (f : Flag) (m : Byte) (s : State) :
    (s.bitTest m).flag f =
      if f = .v then m.getLsbD 6 else if f = .n then m.getLsbD 7 else if f = .z then s.a &&& m == 0 else s.flag f := by
  simp [State.bitTest]

/-- C, Z and N from a shift; the other flags as before (R268). -/
@[simp] theorem State.flag_setShiftFlags (f : Flag) (g : Shift) (m r : Byte) (s : State) :
    (s.setShiftFlags g m r).flag f =
      if f = .n then r.msb else if f = .z then r == 0 else if f = .c then g.out m else s.flag f := by
  simp [State.setShiftFlags]

/-- The sum's byte is the exact sum mod 2^8 (R220). -/
theorem add8_result (a m : Byte) (c : Bool) : (add8 a m c).result.toNat = (a.toNat + m.toNat + c.toNat) % 256 := by
  simp [add8]

theorem add8_carry (a m : Byte) (c : Bool) :
    (add8 a m c).carry = decide (255 < a.toNat + m.toNat + c.toNat) := rfl

/-- The overflow is signed overflow of the exact sum (R220). -/
theorem add8_overflow (a m : Byte) (c : Bool) :
    (add8 a m c).overflow =
      decide (a.toInt + m.toInt + c.toNat < -128 ∨ 127 < a.toInt + m.toInt + c.toNat) := by
  have ha := a.isLt
  have hm := m.isLt
  have hc : c.toNat ≤ 1 := by cases c <;> decide
  simp only [add8, BitVec.msb_eq_decide, BitVec.toInt_eq_toNat_cond, BitVec.toNat_ofNat]
  rw [Bool.eq_iff_iff]
  simp only [Bool.and_eq_true, beq_iff_eq, bne_iff_ne, ne_eq, decide_eq_decide, decide_eq_true_eq]
  split <;> split <;> omega

theorem toNat_not8 (m : Byte) : (~~~m).toNat = 255 - m.toNat := by
  rw [BitVec.toNat_not]

/-- The difference's byte is a - m - (1 - c) mod 2^8 (R221). -/
theorem sub8_result (a m : Byte) (c : Bool) :
    ((sub8 a m c).result.toNat : Int) = ((a.toNat : Int) - m.toNat - (1 - c.toNat)) % 256 := by
  have hm := m.isLt
  have hc : c.toNat ≤ 1 := by cases c <;> decide
  rw [sub8, add8_result, toNat_not8]
  omega

/-- The carry is the no-borrow bit (R221). -/
theorem sub8_carry (a m : Byte) (c : Bool) :
    (sub8 a m c).carry = decide (0 ≤ (a.toNat : Int) - m.toNat - (1 - c.toNat)) := by
  have hm := m.isLt
  have hc : c.toNat ≤ 1 := by cases c <;> decide
  rw [sub8, add8_carry, toNat_not8, decide_eq_decide]
  omega

/-- The overflow is signed overflow of a - m - (1 - c) (R221). -/
theorem sub8_overflow (a m : Byte) (c : Bool) :
    (sub8 a m c).overflow =
      decide (a.toInt - m.toInt - (1 - c.toNat) < -128 ∨ 127 < a.toInt - m.toInt - (1 - c.toNat)) := by
  have hm := m.isLt
  have hc : c.toNat ≤ 1 := by cases c <;> decide
  have hn : (~~~m).toInt = -m.toInt - 1 := by
    simp only [BitVec.toInt_eq_toNat_cond, toNat_not8]
    split <;> split <;> omega
  rw [sub8, add8_overflow, hn, decide_eq_decide]
  omega

end Sys2Proof.Machine
end

