-- ==== Sys2Proof/Laws/Ops.lean ====
section
/-! SUPPORT. What each operation over the bus can do, once: an access behind its interleaving point, the stack, entering
and leaving a handler, the poll. -/

namespace Sys2Proof.Machine

@[simp] theorem State.points_pc (n : Nat) (s : State) :
    (s.points n).pc = s.pc := by
  induction n generalizing s with
  | zero => rfl
  | succ n ih => rw [State.points, ih]; simp
@[simp] theorem State.points_sp (n : Nat) (s : State) :
    (s.points n).sp = s.sp := by
  induction n generalizing s with
  | zero => rfl
  | succ n ih => rw [State.points, ih]; simp
@[simp] theorem State.points_a (n : Nat) (s : State) :
    (s.points n).a = s.a := by
  induction n generalizing s with
  | zero => rfl
  | succ n ih => rw [State.points, ih]; simp
@[simp] theorem State.points_x (n : Nat) (s : State) :
    (s.points n).x = s.x := by
  induction n generalizing s with
  | zero => rfl
  | succ n ih => rw [State.points, ih]; simp
@[simp] theorem State.points_y (n : Nat) (s : State) :
    (s.points n).y = s.y := by
  induction n generalizing s with
  | zero => rfl
  | succ n ih => rw [State.points, ih]; simp
@[simp] theorem State.points_p (n : Nat) (s : State) :
    (s.points n).p = s.p := by
  induction n generalizing s with
  | zero => rfl
  | succ n ih => rw [State.points, ih]; simp
@[simp] theorem State.points_mem (n : Nat) (s : State) :
    (s.points n).mem = s.mem := by
  induction n generalizing s with
  | zero => rfl
  | succ n ih => rw [State.points, ih]; simp
@[simp] theorem State.points_enable (n : Nat) (s : State) :
    (s.points n).enable = s.enable := by
  induction n generalizing s with
  | zero => rfl
  | succ n ih => rw [State.points, ih]; simp
@[simp] theorem State.points_autoscan (n : Nat) (s : State) :
    (s.points n).autoscan = s.autoscan := by
  induction n generalizing s with
  | zero => rfl
  | succ n ih => rw [State.points, ih]; simp
@[simp] theorem State.points_ddra (n : Nat) (s : State) :
    (s.points n).ddra = s.ddra := by
  induction n generalizing s with
  | zero => rfl
  | succ n ih => rw [State.points, ih]; simp
@[simp] theorem State.points_lastProbe (n : Nat) (s : State) :
    (s.points n).lastProbe = s.lastProbe := by
  induction n generalizing s with
  | zero => rfl
  | succ n ih => rw [State.points, ih]; simp
@[simp] theorem State.points_status (n : Nat) (s : State) :
    (s.points n).status = s.status := by
  induction n generalizing s with
  | zero => rfl
  | succ n ih => rw [State.points, ih]; simp
@[simp] theorem State.points_cfg (n : Nat) (s : State) :
    (s.points n).cfg = s.cfg := by
  induction n generalizing s with
  | zero => rfl
  | succ n ih => rw [State.points, ih]; simp
@[simp] theorem State.points_handlerScript (n : Nat) (s : State) :
    (s.points n).handlerScript = s.handlerScript := by
  induction n generalizing s with
  | zero => rfl
  | succ n ih => rw [State.points, ih]; simp
@[simp] theorem State.points_draws (n : Nat) (s : State) :
    (s.points n).draws = s.draws := by
  induction n generalizing s with
  | zero => rfl
  | succ n ih => rw [State.points, ih]; simp

/-- Interleaving points change nothing but the agents' fields (R79, R453). -/
theorem State.blankAgents_points (n : Nat) (s : State) : (s.points n).blankAgents = s.blankAgents := by
  induction n generalizing s with
  | zero => rfl
  | succ n ih => exact (ih s.interleave).trans s.blankAgents_interleave

/-- The agents' fields behind n points depend on the agents' fields before them alone. -/
theorem State.agents_points {s t : State} (h : s.agents = t.agents) (n : Nat) : (s.points n).agents = (t.points n).agents := by
  induction n generalizing s t with
  | zero => exact h
  | succ n ih => exact ih (State.agents_interleave h)

theorem State.points_add (m n : Nat) (s : State) : s.points (m + n) = (s.points m).points n := by
  induction m generalizing s with
  | zero => simp [State.points]
  | succ m ih => rw [Nat.succ_add, State.points, ih]; rfl

/-- Under a quiet schedule, points do nothing. -/
theorem State.points_quiet {s : State} (h : s.schedule = .quiet) (n : Nat) : s.points n = s := by
  induction n with
  | zero => rfl
  | succ n ih => rw [State.points, State.interleave_quiet h, ih]

/-- A hooked read behind its point (R62, R453). -/
@[simp] theorem State.busRead_agents (a : Word) (s : State) : (s.busRead a).2.agents = (s.points 1).agents :=
  State.memRead_agents a s.interleave

@[simp] theorem State.busRead_pc (a : Word) (s : State) : ((s.busRead a).2).pc = s.pc := by simp [State.busRead]
@[simp] theorem State.busRead_sp (a : Word) (s : State) : ((s.busRead a).2).sp = s.sp := by simp [State.busRead]
@[simp] theorem State.busRead_a (a : Word) (s : State) : ((s.busRead a).2).a = s.a := by simp [State.busRead]
@[simp] theorem State.busRead_x (a : Word) (s : State) : ((s.busRead a).2).x = s.x := by simp [State.busRead]
@[simp] theorem State.busRead_y (a : Word) (s : State) : ((s.busRead a).2).y = s.y := by simp [State.busRead]
@[simp] theorem State.busRead_p (a : Word) (s : State) : ((s.busRead a).2).p = s.p := by simp [State.busRead]
@[simp] theorem State.busRead_mem (a : Word) (s : State) : ((s.busRead a).2).mem = s.mem := by simp [State.busRead]
@[simp] theorem State.busRead_enable (a : Word) (s : State) :
    ((s.busRead a).2).enable = s.enable := by simp [State.busRead]
@[simp] theorem State.busRead_autoscan (a : Word) (s : State) :
    ((s.busRead a).2).autoscan = s.autoscan := by simp [State.busRead]
@[simp] theorem State.busRead_ddra (a : Word) (s : State) : ((s.busRead a).2).ddra = s.ddra := by simp [State.busRead]
@[simp] theorem State.busRead_lastProbe (a : Word) (s : State) :
    ((s.busRead a).2).lastProbe = s.lastProbe := by simp [State.busRead]
@[simp] theorem State.busRead_status (a : Word) (s : State) :
    ((s.busRead a).2).status = s.status := by simp [State.busRead]
@[simp] theorem State.busRead_cfg (a : Word) (s : State) : ((s.busRead a).2).cfg = s.cfg := by simp [State.busRead]
@[simp] theorem State.busRead_handlerScript (a : Word) (s : State) :
    ((s.busRead a).2).handlerScript = s.handlerScript := by simp [State.busRead]

/-- Where no hook answers, a read is the cell (R62). -/
theorem State.busRead_unhooked {a : Word} {s : State} (h : a ∉ s.cfg.readRegisters) :
    s.busRead a = (s.rawRead a, s.interleave) := by
  rw [State.busRead, State.memRead_unhooked (by simpa using h), State.rawRead_congr (t := s) (by simp)]

/-- The agents' fields after two accesses. -/
@[simp] theorem State.busReadPair_agents (lo hi : Word) (s : State) :
    (s.busReadPair lo hi).2.agents = (s.points 2).agents :=
  (State.busRead_agents hi _).trans (State.agents_points (State.busRead_agents lo s) 1)

@[simp] theorem State.busReadPair_pc (lo hi : Word) (s : State) :
    ((s.busReadPair lo hi).2).pc = s.pc := by
  simp [State.busReadPair]
@[simp] theorem State.busReadPair_sp (lo hi : Word) (s : State) :
    ((s.busReadPair lo hi).2).sp = s.sp := by
  simp [State.busReadPair]
@[simp] theorem State.busReadPair_a (lo hi : Word) (s : State) :
    ((s.busReadPair lo hi).2).a = s.a := by
  simp [State.busReadPair]
@[simp] theorem State.busReadPair_x (lo hi : Word) (s : State) :
    ((s.busReadPair lo hi).2).x = s.x := by
  simp [State.busReadPair]
@[simp] theorem State.busReadPair_y (lo hi : Word) (s : State) :
    ((s.busReadPair lo hi).2).y = s.y := by
  simp [State.busReadPair]
@[simp] theorem State.busReadPair_p (lo hi : Word) (s : State) :
    ((s.busReadPair lo hi).2).p = s.p := by
  simp [State.busReadPair]
@[simp] theorem State.busReadPair_mem (lo hi : Word) (s : State) :
    ((s.busReadPair lo hi).2).mem = s.mem := by
  simp [State.busReadPair]
@[simp] theorem State.busReadPair_enable (lo hi : Word) (s : State) :
    ((s.busReadPair lo hi).2).enable = s.enable := by
  simp [State.busReadPair]
@[simp] theorem State.busReadPair_autoscan (lo hi : Word) (s : State) :
    ((s.busReadPair lo hi).2).autoscan = s.autoscan := by
  simp [State.busReadPair]
@[simp] theorem State.busReadPair_ddra (lo hi : Word) (s : State) :
    ((s.busReadPair lo hi).2).ddra = s.ddra := by
  simp [State.busReadPair]
@[simp] theorem State.busReadPair_lastProbe (lo hi : Word) (s : State) :
    ((s.busReadPair lo hi).2).lastProbe = s.lastProbe := by
  simp [State.busReadPair]
@[simp] theorem State.busReadPair_status (lo hi : Word) (s : State) :
    ((s.busReadPair lo hi).2).status = s.status := by
  simp [State.busReadPair]
@[simp] theorem State.busReadPair_cfg (lo hi : Word) (s : State) :
    ((s.busReadPair lo hi).2).cfg = s.cfg := by
  simp [State.busReadPair]
@[simp] theorem State.busReadPair_handlerScript (lo hi : Word) (s : State) :
    ((s.busReadPair lo hi).2).handlerScript = s.handlerScript := by
  simp [State.busReadPair]

/-- Two reads where no hook answers: the word of the two cells (R66). -/
theorem State.busReadPair_unhooked {lo hi : Word} {s : State} (hl : lo ∉ s.cfg.readRegisters)
    (hh : hi ∉ s.cfg.readRegisters) : s.busReadPair lo hi = (word (s.rawRead hi) (s.rawRead lo), s.points 2) := by
  have hh' : hi ∉ s.interleave.cfg.readRegisters := by simpa using hh
  simp only [State.busReadPair, State.busRead_unhooked hl, State.busRead_unhooked hh']
  rw [State.rawRead_congr (t := s) (by simp)]
  rfl

@[simp] theorem State.busWrite_pc (a : Word) (v : Byte) (s : State) :
    (s.busWrite a v).pc = s.pc := by simp [State.busWrite]
@[simp] theorem State.busWrite_sp (a : Word) (v : Byte) (s : State) :
    (s.busWrite a v).sp = s.sp := by simp [State.busWrite]
@[simp] theorem State.busWrite_a (a : Word) (v : Byte) (s : State) :
    (s.busWrite a v).a = s.a := by simp [State.busWrite]
@[simp] theorem State.busWrite_x (a : Word) (v : Byte) (s : State) :
    (s.busWrite a v).x = s.x := by simp [State.busWrite]
@[simp] theorem State.busWrite_y (a : Word) (v : Byte) (s : State) :
    (s.busWrite a v).y = s.y := by simp [State.busWrite]
@[simp] theorem State.busWrite_p (a : Word) (v : Byte) (s : State) :
    (s.busWrite a v).p = s.p := by simp [State.busWrite]
@[simp] theorem State.busWrite_mem (a : Word) (v : Byte) (s : State) :
    (s.busWrite a v).mem = Memory.write s.mem a.toNat v := by simp [State.busWrite]
@[simp] theorem State.busWrite_status (a : Word) (v : Byte) (s : State) :
    (s.busWrite a v).status = s.status := by simp [State.busWrite]
@[simp] theorem State.busWrite_cfg (a : Word) (v : Byte) (s : State) :
    (s.busWrite a v).cfg = s.cfg := by simp [State.busWrite]
@[simp] theorem State.busWrite_handlerScript (a : Word) (v : Byte) (s : State) :
    (s.busWrite a v).handlerScript = s.handlerScript := by simp [State.busWrite]
@[simp] theorem State.busWrite_draws (a : Word) (v : Byte) (s : State) :
    (s.busWrite a v).draws = s.draws := by simp [State.busWrite]
@[simp] theorem State.busWrite_lastKey (a : Word) (v : Byte) (s : State) :
    (s.busWrite a v).lastKey = (s.points 1).lastKey := by
  simp [State.busWrite, State.points]
@[simp] theorem State.busWrite_schedule (a : Word) (v : Byte) (s : State) :
    (s.busWrite a v).schedule = (s.points 1).schedule := by
  simp [State.busWrite, State.points]
@[simp] theorem State.busWrite_stopRequest (a : Word) (v : Byte) (s : State) :
    (s.busWrite a v).stopRequest = (s.points 1).stopRequest := by
  simp [State.busWrite, State.points]

/-- Where no hook acts, a write is the cell (R63). -/
theorem State.busWrite_unhooked {a : Word} {s : State} (h : a ∉ s.cfg.viaRegisters) (v : Byte) :
    s.busWrite a v = s.interleave.rawWrite a v := State.memWrite_unhooked (by simpa using h) v

/-- A cell after a hooked write inside a step. -/
theorem State.rawRead_busWrite {s : State} (h : s.mem.wf = true) (a c : Word) (v : Byte) :
    (s.busWrite a v).rawRead c = if c = a then v else s.rawRead c := by
  rw [State.busWrite, State.rawRead_memWrite (by simpa using h), State.rawRead_congr (t := s) (by simp)]

@[simp] theorem State.busPush_pc (v : Byte) (s : State) : (s.busPush v).pc = s.pc := by simp [State.busPush]
@[simp] theorem State.busPush_sp (v : Byte) (s : State) : (s.busPush v).sp = s.sp - 1 := by simp [State.busPush]
@[simp] theorem State.busPush_a (v : Byte) (s : State) : (s.busPush v).a = s.a := by simp [State.busPush]
@[simp] theorem State.busPush_x (v : Byte) (s : State) : (s.busPush v).x = s.x := by simp [State.busPush]
@[simp] theorem State.busPush_y (v : Byte) (s : State) : (s.busPush v).y = s.y := by simp [State.busPush]
@[simp] theorem State.busPush_p (v : Byte) (s : State) : (s.busPush v).p = s.p := by simp [State.busPush]
@[simp] theorem State.busPush_mem (v : Byte) (s : State) :
    (s.busPush v).mem = Memory.write s.mem (stackAddr s.sp).toNat v := by simp [State.busPush]
@[simp] theorem State.busPush_enable (v : Byte) (s : State) :
    (s.busPush v).enable = s.enable := by simp [State.busPush]
@[simp] theorem State.busPush_autoscan (v : Byte) (s : State) :
    (s.busPush v).autoscan = s.autoscan := by simp [State.busPush]
@[simp] theorem State.busPush_ddra (v : Byte) (s : State) : (s.busPush v).ddra = s.ddra := by simp [State.busPush]
@[simp] theorem State.busPush_lastProbe (v : Byte) (s : State) :
    (s.busPush v).lastProbe = s.lastProbe := by simp [State.busPush]
@[simp] theorem State.busPush_status (v : Byte) (s : State) :
    (s.busPush v).status = s.status := by simp [State.busPush]
@[simp] theorem State.busPush_cfg (v : Byte) (s : State) : (s.busPush v).cfg = s.cfg := by simp [State.busPush]
@[simp] theorem State.busPush_handlerScript (v : Byte) (s : State) :
    (s.busPush v).handlerScript = s.handlerScript := by simp [State.busPush]
@[simp] theorem State.busPush_draws (v : Byte) (s : State) : (s.busPush v).draws = s.draws := by simp [State.busPush]

@[simp] theorem State.busPush_agents (v : Byte) (s : State) : (s.busPush v).agents = (s.points 1).agents := rfl

/-- A cell after a push (R70). -/
theorem State.rawRead_push {s : State} (h : s.mem.wf = true) (v : Byte) (c : Word) :
    (s.push v).rawRead c = if c = stackAddr s.sp then v else s.rawRead c := State.rawRead_rawWrite h _ _ _

/-- A cell after a push inside a step. -/
theorem State.rawRead_busPush {s : State} (h : s.mem.wf = true) (v : Byte) (c : Word) :
    (s.busPush v).rawRead c = if c = stackAddr s.sp then v else s.rawRead c := by
  rw [State.busPush, State.rawRead_push (by simpa using h), State.rawRead_congr (t := s) (by simp)]
  simp

@[simp] theorem State.busPull_pc (s : State) : (s.busPull.2).pc = s.pc := by simp [State.busPull]
@[simp] theorem State.busPull_sp (s : State) : (s.busPull.2).sp = s.sp + 1 := by simp [State.busPull]
@[simp] theorem State.busPull_a (s : State) : (s.busPull.2).a = s.a := by simp [State.busPull]
@[simp] theorem State.busPull_x (s : State) : (s.busPull.2).x = s.x := by simp [State.busPull]
@[simp] theorem State.busPull_y (s : State) : (s.busPull.2).y = s.y := by simp [State.busPull]
@[simp] theorem State.busPull_p (s : State) : (s.busPull.2).p = s.p := by simp [State.busPull]
@[simp] theorem State.busPull_mem (s : State) : (s.busPull.2).mem = s.mem := by simp [State.busPull]
@[simp] theorem State.busPull_enable (s : State) : (s.busPull.2).enable = s.enable := by simp [State.busPull]
@[simp] theorem State.busPull_autoscan (s : State) : (s.busPull.2).autoscan = s.autoscan := by simp [State.busPull]
@[simp] theorem State.busPull_ddra (s : State) : (s.busPull.2).ddra = s.ddra := by simp [State.busPull]
@[simp] theorem State.busPull_lastProbe (s : State) : (s.busPull.2).lastProbe = s.lastProbe := by simp [State.busPull]
@[simp] theorem State.busPull_status (s : State) : (s.busPull.2).status = s.status := by simp [State.busPull]
@[simp] theorem State.busPull_cfg (s : State) : (s.busPull.2).cfg = s.cfg := by simp [State.busPull]
@[simp] theorem State.busPull_handlerScript (s : State) :
    (s.busPull.2).handlerScript = s.handlerScript := by simp [State.busPull]
@[simp] theorem State.busPull_draws (s : State) : (s.busPull.2).draws = s.draws := by simp [State.busPull]

@[simp] theorem State.busPull_agents (s : State) : s.busPull.2.agents = (s.points 1).agents := rfl

/-- The byte a pull reads (R71). -/
@[simp] theorem State.busPull_byte (s : State) : s.busPull.1 = s.rawRead (stackAddr (s.sp + 1)) := by
  simp only [State.busPull, State.pull, State.interleave_sp]
  exact State.rawRead_congr (by simp) _

@[simp] theorem State.busPull16_pc (s : State) : (s.busPull16.2).pc = s.pc := by simp [State.busPull16]
@[simp] theorem State.busPull16_sp (s : State) : (s.busPull16.2).sp = s.sp + 1 + 1 := by simp [State.busPull16]
@[simp] theorem State.busPull16_a (s : State) : (s.busPull16.2).a = s.a := by simp [State.busPull16]
@[simp] theorem State.busPull16_x (s : State) : (s.busPull16.2).x = s.x := by simp [State.busPull16]
@[simp] theorem State.busPull16_y (s : State) : (s.busPull16.2).y = s.y := by simp [State.busPull16]
@[simp] theorem State.busPull16_p (s : State) : (s.busPull16.2).p = s.p := by simp [State.busPull16]
@[simp] theorem State.busPull16_mem (s : State) : (s.busPull16.2).mem = s.mem := by simp [State.busPull16]
@[simp] theorem State.busPull16_enable (s : State) : (s.busPull16.2).enable = s.enable := by simp [State.busPull16]
@[simp] theorem State.busPull16_autoscan (s : State) :
    (s.busPull16.2).autoscan = s.autoscan := by simp [State.busPull16]
@[simp] theorem State.busPull16_ddra (s : State) : (s.busPull16.2).ddra = s.ddra := by simp [State.busPull16]
@[simp] theorem State.busPull16_lastProbe (s : State) :
    (s.busPull16.2).lastProbe = s.lastProbe := by simp [State.busPull16]
@[simp] theorem State.busPull16_status (s : State) : (s.busPull16.2).status = s.status := by simp [State.busPull16]
@[simp] theorem State.busPull16_cfg (s : State) : (s.busPull16.2).cfg = s.cfg := by simp [State.busPull16]
@[simp] theorem State.busPull16_handlerScript (s : State) :
    (s.busPull16.2).handlerScript = s.handlerScript := by simp [State.busPull16]
@[simp] theorem State.busPull16_draws (s : State) : (s.busPull16.2).draws = s.draws := by simp [State.busPull16]

@[simp] theorem State.busPull16_agents (s : State) : s.busPull16.2.agents = (s.points 2).agents :=
  (State.busPull_agents _).trans (State.agents_points (State.busPull_agents s) 1)

/-- The word two pulls read, low byte first (R72). -/
@[simp] theorem State.busPull16_word (s : State) :
    s.busPull16.1 = word (s.rawRead (stackAddr (s.sp + 1 + 1))) (s.rawRead (stackAddr (s.sp + 1))) := by
  simp only [State.busPull16, State.busPull_byte, State.busPull_sp]
  rw [State.rawRead_congr (t := s) (by simp)]

end Sys2Proof.Machine
end

