-- ==== Sys2Proof/Laws/Operands.lean ====
section
/-! SUPPORT. What resolving an operand, reading, storing and modifying can do, once. -/

namespace Sys2Proof.Machine

/-- `t` is `s` after `n` bus reads: the agents' fields are what `n` interleaving points make of them, the counter of free
values may have advanced, and nothing else differs. -/
def Accessed (n : Nat) (s t : State) : Prop :=
  t.agents = (s.points n).agents ∧ t.blankAgents.blankDraws = s.blankAgents.blankDraws

theorem Accessed.refl (s : State) : Accessed 0 s s := ⟨rfl, rfl⟩

theorem Accessed.trans {m n : Nat} {s t u : State} (h : Accessed m s t) (k : Accessed n t u) : Accessed (m + n) s u := by
  refine ⟨?_, k.2.trans h.2⟩
  rw [k.1, State.points_add]
  exact State.agents_points h.1 n

theorem State.busRead_accessed (a : Word) (s : State) : Accessed 1 s (s.busRead a).2 := by
  refine ⟨State.busRead_agents a s, ?_⟩
  have h := congrArg State.blankAgents (s.interleave.blankDraws_memRead a)
  exact h.trans (congrArg State.blankDraws s.blankAgents_interleave)

theorem State.busReadPair_accessed (lo hi : Word) (s : State) : Accessed 2 s (s.busReadPair lo hi).2 :=
  (s.busRead_accessed lo).trans (State.busRead_accessed hi _)

section fields
variable {n : Nat} {s t : State} (h : Accessed n s t)
include h

theorem Accessed.pc_eq : t.pc = s.pc := (congrArg State.pc h.2 :)
theorem Accessed.sp_eq : t.sp = s.sp := (congrArg State.sp h.2 :)
theorem Accessed.a_eq : t.a = s.a := (congrArg State.a h.2 :)
theorem Accessed.x_eq : t.x = s.x := (congrArg State.x h.2 :)
theorem Accessed.y_eq : t.y = s.y := (congrArg State.y h.2 :)
theorem Accessed.p_eq : t.p = s.p := (congrArg State.p h.2 :)
theorem Accessed.mem_eq : t.mem = s.mem := (congrArg State.mem h.2 :)
theorem Accessed.enable_eq : t.enable = s.enable := (congrArg State.enable h.2 :)
theorem Accessed.autoscan_eq : t.autoscan = s.autoscan := (congrArg State.autoscan h.2 :)
theorem Accessed.ddra_eq : t.ddra = s.ddra := (congrArg State.ddra h.2 :)
theorem Accessed.lastProbe_eq : t.lastProbe = s.lastProbe := (congrArg State.lastProbe h.2 :)
theorem Accessed.status_eq : t.status = s.status := (congrArg State.status h.2 :)
theorem Accessed.cfg_eq : t.cfg = s.cfg := (congrArg State.cfg h.2 :)
theorem Accessed.handlerScript_eq : t.handlerScript = s.handlerScript := (congrArg State.handlerScript h.2 :)
theorem Accessed.pending_eq : t.pending = (s.points n).pending := (congrArg (fun q => q.2.1) h.1 :)
theorem Accessed.notified_eq : t.notified = (s.points n).notified := (congrArg (fun q => q.2.2.1) h.1 :)
theorem Accessed.lastKey_eq : t.lastKey = (s.points n).lastKey := (congrArg (fun q => q.2.2.2.1) h.1 :)
theorem Accessed.schedule_eq : t.schedule = (s.points n).schedule := (congrArg (fun q => q.2.2.2.2.1) h.1 :)
theorem Accessed.stopRequest_eq : t.stopRequest = (s.points n).stopRequest := (congrArg (fun q => q.2.2.2.2.2.1) h.1 :)
theorem Accessed.flag_eq (f : Flag) : t.flag f = s.flag f := by rw [State.flag, State.flag, h.p_eq]
theorem Accessed.reg_eq (r : Reg) : t.reg r = s.reg r := by
  cases r
  · exact h.a_eq
  · exact h.x_eq
  · exact h.y_eq
  · exact h.sp_eq
theorem Accessed.rawRead_eq (a : Word) : t.rawRead a = s.rawRead a := State.rawRead_congr h.mem_eq a
end fields

/-- An operand in memory has an effective address, reached with the reads of its pointer (R145 to R148). -/
theorem effectiveAddress_inMemory (op : Byte) {o : Operand} (ho : inMemory o = true) (s : State) :
    ∃ ea s1, effectiveAddress op o s = .ok (ea, s1) ∧ Accessed (pointerReads o) s s1 := by
  cases o <;> simp only [inMemory, Bool.false_eq_true] at ho <;>
    first
    | exact ⟨_, _, rfl, Accessed.refl s⟩
    | exact ⟨_, _, rfl, State.busReadPair_accessed _ _ s⟩

theorem memoryAddress_inMemory (op : Byte) {o : Operand} (ho : inMemory o = true) (s : State) :
    memoryAddress op o s = effectiveAddress op o s := by
  rw [memoryAddress, if_pos ho]

/-- Immediate, or a byte in memory: the operands M is defined for (R150). -/
def readable (o : Operand) : Bool := o.mode == .immediate || inMemory o

/-- A readable operand has an operand byte, read with the accesses of R150. -/
theorem operandByte_readable (op : Byte) {o : Operand} (ho : readable o = true) (s : State) :
    ∃ m s1, operandByte op o s = .ok (m, s1) ∧ Accessed (operandReads o) s s1 := by
  by_cases hi : o.mode = .immediate
  · cases o <;> simp only [Operand.mode, reduceCtorEq] at hi
    exact ⟨_, _, rfl, Accessed.refl s⟩
  · have hm : inMemory o = true := by
      simpa [readable, hi] using ho
    obtain ⟨ea, s1, he, ha⟩ := effectiveAddress_inMemory op hm s
    refine ⟨(s1.busRead ea).1, (s1.busRead ea).2, ?_, ?_⟩
    · unfold operandByte
      split
      · exact absurd rfl hi
      · rw [memoryAddress_inMemory op hm, he]
    · rw [operandReads, if_neg hi]
      exact ha.trans (State.busRead_accessed ea s1)

/-- A reading instruction completes with f of the operand byte and the state its read left. -/
theorem reading_next {op : Byte} {o : Operand} {s s1 : State} {m : Byte} (h : operandByte op o s = .ok (m, s1))
    (f : Byte → State → State) : reading op o f s = .next ((f m s1).advance o.length) := by
  simp only [reading, h, done]

/-- A store completes with one hooked write at the effective address. -/
theorem storing_next {op : Byte} {o : Operand} {s s1 : State} {ea : Word} (ho : inMemory o = true)
    (h : effectiveAddress op o s = .ok (ea, s1)) (value : State → Byte) :
    storing op o value s = .next ((s1.busWrite ea (value s)).advance o.length) := by
  simp only [storing, memoryAddress_inMemory op ho, h, done]

/-- A read-modify-write completes with one hooked read and one hooked write at the effective address (R152). -/
theorem modifying_next {op : Byte} {o : Operand} {s s1 : State} {ea : Word} (ho : inMemory o = true)
    (h : effectiveAddress op o s = .ok (ea, s1)) (r : Byte → Bool → Byte) (f : Byte → Byte → State → State) :
    modifying op o r f s =
      .next ((f (s1.busRead ea).1 (r (s1.busRead ea).1 (s.flag .c))
        ((s1.busRead ea).2.busWrite ea (r (s1.busRead ea).1 (s.flag .c)))).advance o.length) := by
  simp only [modifying, memoryAddress_inMemory op ho, h, done]

end Sys2Proof.Machine
end

