-- ==== Sys2Proof/Laws/Cycle.lean ====
section
/-! SUPPORT. What a CPU step's fetch can do, and what a step that stops leaves. -/

namespace Sys2Proof

/-- What a row makes of bytes has the length of the row's mode (R100, R107). -/
theorem Row.make_length {r : Row} (h : r ∈ decoderTable) {bytes rest : List Byte} {i : Instr}
    (hm : r.make bytes = .ok (i, rest)) : i.length = 1 + r.mode.operandLength := by
  have hs := congrArg List.length (decoderTable_sound r h bytes rest i hm)
  have he : (encode i).length = i.length := by cases i <;> rfl
  rw [← decoderTable_arity r h]
  rw [List.length_append, he, List.length_cons] at hs
  obtain ⟨op, m, md, f⟩ := r
  cases f with
  | f0 j =>
    cases hm
    simp only [Format.arity]
    omega
  | f1 f =>
    rcases bytes with _ | ⟨b, bytes⟩ <;> cases hm
    simp only [Format.arity]
    simp only [List.length_cons] at hs
    omega
  | f2 f =>
    rcases bytes with _ | ⟨b, _ | ⟨c, bytes⟩⟩ <;> cases hm
    simp only [Format.arity]
    simp only [List.length_cons] at hs
    omega

namespace Machine

/-- Reading n operand bytes is n bus reads (R141, R453). -/
theorem fetchBytes_accessed (n : Nat) (a : Word) (s : State) : Accessed n s (fetchBytes n a s).2 := by
  induction n generalizing a s with
  | zero => exact Accessed.refl s
  | succ n ih =>
    have h := (State.busRead_accessed a s).trans (ih (a + 1) _)
    rw [Nat.add_comm] at h
    exact h

/-- A fetch that answers an instruction has made as many bus reads as it is long, the opcode's behind the boundary's point
(R141, R453). -/
theorem fetch_accessed {s t : State} {i : Instr} (h : fetch s.interleave = .ok (i, t)) : Accessed i.length s t := by
  unfold fetch at h
  simp only at h
  split at h
  · cases h
  · rename_i r hr
    split at h
    · rename_i j rest hd
      obtain ⟨rfl, rfl⟩ := Prod.mk.inj (Except.ok.inj h)
      simp only [decode, hr] at hd
      rw [Row.make_length (lookup_some hr).1 hd]
      exact (State.busRead_accessed _ s).trans (fetchBytes_accessed _ _ _)
    · cases h

/-- Two states that differ in the counter of free values alone. -/
theorem State.eq_of_blankDraws {s t : State} (h : t.blankDraws = s.blankDraws) : t = { s with draws := t.draws } :=
  (congrArg (fun u : State => { u with draws := t.draws }) h :)

/-- After n bus reads the state is what n interleaving points make of it, but for the counter of free values. -/
theorem Accessed.eq_points {n : Nat} {s t : State} (h : Accessed n s t) : t = { s.points n with draws := t.draws } := by
  apply State.eq_of_blankDraws
  have e : t.blankDraws = { s.blankAgents.blankDraws with
      pending := t.pending, notified := t.notified, lastKey := t.lastKey, schedule := t.schedule
      stopRequest := t.stopRequest } :=
    (congrArg (fun u : State => { u with
      pending := t.pending, notified := t.notified, lastKey := t.lastKey, schedule := t.schedule
      stopRequest := t.stopRequest }) h.2 :)
  have hp : Accessed n s (s.points n) := ⟨rfl, by rw [State.blankAgents_points]⟩
  have f : (s.points n).blankDraws = { s.blankAgents.blankDraws with
      pending := (s.points n).pending, notified := (s.points n).notified, lastKey := (s.points n).lastKey
      schedule := (s.points n).schedule, stopRequest := (s.points n).stopRequest } :=
    (congrArg (fun u : State => { u with
      pending := (s.points n).pending, notified := (s.points n).notified, lastKey := (s.points n).lastKey
      schedule := (s.points n).schedule, stopRequest := (s.points n).stopRequest }) hp.2 :)
  rw [e, f, h.pending_eq, h.notified_eq, h.lastKey_eq, h.schedule_eq, h.stopRequest_eq]

/-- A step that faults on its opcode byte leaves what the opcode's access leaves (R400). -/
theorem stoppedAt_of_error {s : State} {f : Fault} (h : fetch s = .error f) : stoppedAt s = (s.memRead s.pc).2 := by
  simp only [stoppedAt, h]

/-- A step that stops in an instruction whose operand byte it has read leaves what that read leaves (R403). -/
theorem stoppedAt_of_ok {s t u : State} {i : Instr} {m : Byte} (h : fetch s = .ok (i, t))
    (ho : operandByte i.opcode i.operand t = .ok (m, u)) : stoppedAt s = u := by
  simp only [stoppedAt, h, ho]

/-- What is recorded of a running machine's step that is refused (R403). -/
theorem settle_refused {s : State} {r : Refusal} (hs : s.status = .running) (h : cycle s = .refused r) :
    settle s = { stoppedAt s.interleave with status := .refused r } := by
  simp only [settle, hs, h]

/-- What is recorded of a running machine's step that faults (R400). -/
theorem settle_fault {s : State} {f : Fault} (hs : s.status = .running) (h : cycle s = .fault f) :
    settle s = { stoppedAt s.interleave with status := .faulted f } := by
  simp only [settle, hs, h]

end Machine

end Sys2Proof
end

