-- ==== Sys2Proof/Laws/Handlers.lean ====
section
/-! SUPPORT. What entering an interrupt handler, returning from one, the poll and the interceptor seam can do, once. -/

namespace Sys2Proof.Machine

/-- The cells after an entry from s: the frame of R348 and R411 pushed below S. -/
def State.framed (ret : Word) (status : Byte) (s : State) : Memory :=
  Memory.write (Memory.write (Memory.write s.mem (stackAddr s.sp).toNat (hi8 ret)) (stackAddr (s.sp - 1)).toNat (lo8 ret))
    (stackAddr (s.sp - 1 - 1)).toNat status

section entry
variable (ret : Word) (status : Byte) (s : State)

@[simp] theorem State.enterHandler_sp : (s.enterHandler ret status).sp = s.sp - 1 - 1 - 1 := by
  simp [State.enterHandler, State.busRead16]
@[simp] theorem State.enterHandler_a : (s.enterHandler ret status).a = s.a := by
  simp [State.enterHandler, State.busRead16]
@[simp] theorem State.enterHandler_x : (s.enterHandler ret status).x = s.x := by
  simp [State.enterHandler, State.busRead16]
@[simp] theorem State.enterHandler_y : (s.enterHandler ret status).y = s.y := by
  simp [State.enterHandler, State.busRead16]
@[simp] theorem State.enterHandler_p : (s.enterHandler ret status).p = Flag.put .i true s.p := by
  simp [State.enterHandler, State.busRead16]
@[simp] theorem State.enterHandler_mem : (s.enterHandler ret status).mem = s.framed ret status := by
  simp [State.enterHandler, State.busRead16, State.framed]
@[simp] theorem State.enterHandler_enable : (s.enterHandler ret status).enable = s.enable := by
  simp [State.enterHandler, State.busRead16]
@[simp] theorem State.enterHandler_autoscan : (s.enterHandler ret status).autoscan = s.autoscan := by
  simp [State.enterHandler, State.busRead16]
@[simp] theorem State.enterHandler_ddra : (s.enterHandler ret status).ddra = s.ddra := by
  simp [State.enterHandler, State.busRead16]
@[simp] theorem State.enterHandler_lastProbe : (s.enterHandler ret status).lastProbe = s.lastProbe := by
  simp [State.enterHandler, State.busRead16]
@[simp] theorem State.enterHandler_status : (s.enterHandler ret status).status = s.status := by
  simp [State.enterHandler, State.busRead16]
@[simp] theorem State.enterHandler_cfg : (s.enterHandler ret status).cfg = s.cfg := by
  simp [State.enterHandler, State.busRead16]
@[simp] theorem State.enterHandler_handlerScript : (s.enterHandler ret status).handlerScript = s.handlerScript := by
  simp [State.enterHandler, State.busRead16]

/-- Four interleaving points stand inside an entry: two pushes and the two reads of the vector (R453; log 5). -/
@[simp] theorem State.enterHandler_agents : (s.enterHandler ret status).agents = (s.points 4).agents := by
  have h1 : ((s.push (hi8 ret)).busPush (lo8 ret)).agents = (s.points 1).agents :=
    (State.busPush_agents _ _).trans (State.agents_points (s := s.push (hi8 ret)) (t := s) rfl 1)
  have h2 : (((s.push (hi8 ret)).busPush (lo8 ret)).busPush status).agents = ((s.points 1).points 1).agents :=
    (State.busPush_agents _ _).trans (State.agents_points h1 1)
  have h3 : ((((s.push (hi8 ret)).busPush (lo8 ret)).busPush status).setFlag .i true).agents =
      ((s.points 1).points 1).agents := h2
  exact (State.busReadPair_agents _ _ _).trans (State.agents_points h3 2)

/-- An entry goes to the word at VEC_IRQ of the cells its pushes left, where no read hook claims the vector (R348, R411). -/
theorem State.enterHandler_pc (hl : 0xFFFE#16 ∉ s.cfg.readRegisters) (hh : 0xFFFF#16 ∉ s.cfg.readRegisters) :
    (s.enterHandler ret status).pc =
      word (Memory.read (s.framed ret status) 0xFFFF) (Memory.read (s.framed ret status) 0xFFFE) := by
  have h : ∀ t : State, t.cfg = s.cfg →
      (t.busRead16 Config.vecIrq).1 = word (t.rawRead 0xFFFF#16) (t.rawRead 0xFFFE#16) := fun t e =>
    congrArg Prod.fst (State.busReadPair_unhooked (lo := 0xFFFE#16) (hi := 0xFFFF#16) (e ▸ hl) (e ▸ hh))
  refine (h _ (by simp)).trans ?_
  simp [State.rawRead, State.framed]

end entry

/-- A cell after the frame is pushed: the stacked bytes, and every other cell as before. -/
theorem State.read_framed {s : State} (h : s.mem.wf = true) (ret : Word) (status : Byte) (c : Word) :
    Memory.read (s.framed ret status) c.toNat =
      if c = stackAddr (s.sp - 1 - 1) then status
      else if c = stackAddr (s.sp - 1) then lo8 ret
      else if c = stackAddr s.sp then hi8 ret
      else s.rawRead c := by
  have h1 := State.wf_rawWrite h (stackAddr s.sp) (hi8 ret)
  have h2 := State.wf_rawWrite h1 (stackAddr (s.sp - 1)) (lo8 ret)
  refine (State.rawRead_rawWrite h2 _ c status).trans ?_
  rw [State.rawRead_rawWrite h1, State.rawRead_rawWrite h]

theorem State.wf_framed {s : State} (h : s.mem.wf = true) (ret : Word) (status : Byte) :
    (s.framed ret status).wf = true :=
  State.wf_rawWrite (State.wf_rawWrite (State.wf_rawWrite h _ _) _ _) (stackAddr (s.sp - 1 - 1)) status

@[simp] theorem State.returnFromHandler_sp (s : State) : s.returnFromHandler.sp = s.sp + 1 + 1 + 1 := by
  simp [State.returnFromHandler]
@[simp] theorem State.returnFromHandler_a (s : State) : s.returnFromHandler.a = s.a := by
  simp [State.returnFromHandler]
@[simp] theorem State.returnFromHandler_x (s : State) : s.returnFromHandler.x = s.x := by
  simp [State.returnFromHandler]
@[simp] theorem State.returnFromHandler_y (s : State) : s.returnFromHandler.y = s.y := by
  simp [State.returnFromHandler]
@[simp] theorem State.returnFromHandler_mem (s : State) : s.returnFromHandler.mem = s.mem := by
  simp [State.returnFromHandler]
@[simp] theorem State.returnFromHandler_enable (s : State) : s.returnFromHandler.enable = s.enable := by
  simp [State.returnFromHandler]
@[simp] theorem State.returnFromHandler_autoscan (s : State) : s.returnFromHandler.autoscan = s.autoscan := by
  simp [State.returnFromHandler]
@[simp] theorem State.returnFromHandler_ddra (s : State) : s.returnFromHandler.ddra = s.ddra := by
  simp [State.returnFromHandler]
@[simp] theorem State.returnFromHandler_lastProbe (s : State) : s.returnFromHandler.lastProbe = s.lastProbe := by
  simp [State.returnFromHandler]
@[simp] theorem State.returnFromHandler_status (s : State) : s.returnFromHandler.status = s.status := by
  simp [State.returnFromHandler]
@[simp] theorem State.returnFromHandler_cfg (s : State) : s.returnFromHandler.cfg = s.cfg := by
  simp [State.returnFromHandler]
@[simp] theorem State.returnFromHandler_handlerScript (s : State) :
    s.returnFromHandler.handlerScript = s.handlerScript := by
  simp [State.returnFromHandler]
@[simp] theorem State.returnFromHandler_draws (s : State) : s.returnFromHandler.draws = s.draws := by
  simp [State.returnFromHandler]

/-- A return pulls P first (R349). -/
@[simp] theorem State.returnFromHandler_p (s : State) : s.returnFromHandler.p = s.rawRead (stackAddr (s.sp + 1)) := by
  simp [State.returnFromHandler]

/-- Then PC, low byte first, with no plus one (R349). -/
@[simp] theorem State.returnFromHandler_pc (s : State) :
    s.returnFromHandler.pc =
      word (s.rawRead (stackAddr (s.sp + 1 + 1 + 1))) (s.rawRead (stackAddr (s.sp + 1 + 1))) := by
  simp [State.returnFromHandler, State.rawRead]

/-- Three interleaving points stand inside a return (R453). -/
@[simp] theorem State.returnFromHandler_agents (s : State) : s.returnFromHandler.agents = (s.points 3).agents :=
  (State.busPull16_agents _).trans (State.agents_points (s := s.busPull.2.setFlags s.busPull.1) (State.busPull_agents s) 2)

/-- The poll enters the handler, or does nothing (R410). -/
theorem State.poll_cases (s : State) :
    s.poll = s ∨ s.poll = s.enterHandler s.pc s.interruptStatus ∧ s.notified ≠ 0 ∧ s.flag .i = false := by
  unfold State.poll State.interruptEntry
  split
  · exact .inr ⟨rfl, ‹_›⟩
  · exact .inl rfl

@[simp] theorem State.poll_cfg (s : State) : s.poll.cfg = s.cfg := by
  rcases s.poll_cases with h | ⟨h, _⟩ <;> simp [h]
@[simp] theorem State.poll_status (s : State) : s.poll.status = s.status := by
  rcases s.poll_cases with h | ⟨h, _⟩ <;> simp [h]

theorem State.wf_poll {s : State} (h : s.mem.wf = true) : s.poll.mem.wf = true := by
  rcases s.poll_cases with e | ⟨e, _⟩
  · rw [e]; exact h
  · rw [e, State.enterHandler_mem]; exact State.wf_framed h _ _

/-- An address no handler is registered for is not intercepted (R302). -/
theorem State.intercept_unregistered {w : Word} {s : State} (h : w ∉ s.cfg.interceptors) :
    s.intercept w = (false, s) := by
  simp [State.intercept, h]

/-- A registered call runs the next handler effect behind one interleaving point (R302, R303; log 8). -/
theorem State.intercept_registered {w : Word} {s : State} (h : w ∈ s.cfg.interceptors) :
    s.intercept w =
      (s.interleave.nextHandler.1.handled, s.interleave.nextHandler.2.applyHandler s.interleave.nextHandler.1) := by
  simp [State.intercept, h]

end Sys2Proof.Machine
end

