-- ==== Sys2Proof/Laws/Exec.lean ====
section
/-! SUPPORT. What every operation, every shape of instruction and so every instruction keeps: the launch parameters, the
run status and the invariant. -/

namespace Sys2Proof.Machine

/-- `t` has the launch parameters and the run status of `s`, and its invariant. -/
def Kept (s t : State) : Prop := t.cfg = s.cfg ∧ t.status = s.status ∧ (s.Inv → t.Inv)

theorem Kept.refl (s : State) : Kept s s := ⟨rfl, rfl, id⟩

theorem Kept.trans {s t u : State} (h : Kept s t) (k : Kept t u) : Kept s u :=
  ⟨k.1.trans h.1, k.2.1.trans h.2.1, k.2.2 ∘ h.2.2⟩

/-- A change of nothing but registers keeps all of it. -/
theorem Kept.registers {s t : State} (h : t = { s with pc := t.pc, sp := t.sp, a := t.a, x := t.x, y := t.y, p := t.p }) :
    Kept s t := by
  rw [h]
  exact ⟨rfl, rfl, id⟩

/-- A source's bit is one of the bits a timer can set (R415). -/
theorem sourceMask_sourceBits (c : Config) (src : Source) : sourceMask (c.sourceBit src) &&& ~~~sourceBits c = 0 := by
  have h : ∀ a b : BitVec 7, a &&& ~~~(a ||| b) = 0 := fun a b => by
    ext j
    cases ha : a[j] <;> simp [ha]
  cases src with
  | timer => exact h _ _
  | vsync => unfold sourceBits; rw [BitVec.or_comm]; exact h _ _

theorem State.fire_kept (src : Source) (s : State) : Kept s (s.fire src) := by
  refine ⟨?_, ?_, ?_⟩
  · unfold State.fire; split <;> rfl
  · unfold State.fire; split <;> rfl
  · rintro ⟨h1, h2, h3⟩
    unfold State.fire
    split
    · refine ⟨h1, by simp only [h2], ?_⟩
      show (s.pending ||| sourceMask (s.cfg.sourceBit src)) &&& ~~~sourceBits s.cfg = 0
      rw [BitVec.and_or_distrib_right, h3, sourceMask_sourceBits]
      rfl
    · exact ⟨h1, h2, h3⟩

theorem State.agentStep_kept (g : AgentStep) (s : State) : Kept s (s.agentStep g) := by
  cases g with
  | fire src => exact s.fire_kept src
  | keyDown k => exact ⟨rfl, rfl, id⟩
  | keyUp => exact ⟨rfl, rfl, id⟩
  | hostStop => exact ⟨rfl, rfl, id⟩

theorem State.slot_kept (slot : List AgentStep) (s : State) : Kept s (slot.foldl State.agentStep s) := by
  induction slot generalizing s with
  | nil => exact Kept.refl s
  | cons g rest ih => exact (s.agentStep_kept g).trans (ih _)

theorem State.interleave_kept (s : State) : Kept s s.interleave := by
  unfold State.interleave
  split
  · exact Kept.refl s
  · exact Kept.trans (t := { s with schedule := _ }) ⟨rfl, rfl, id⟩ (State.slot_kept _ _)
  · exact Kept.trans (t := { s with schedule := _ }) ⟨rfl, rfl, id⟩ (State.slot_kept _ _)

theorem State.memRead_kept (a : Word) (s : State) : Kept s (s.memRead a).2 :=
  ⟨by simp, by simp, fun h => ⟨by simpa using h.1, by simpa using h.2.1, by simpa using h.2.2⟩⟩

theorem State.busRead_kept (a : Word) (s : State) : Kept s (s.busRead a).2 :=
  s.interleave_kept.trans (State.memRead_kept a _)

theorem State.busReadPair_kept (lo hi : Word) (s : State) : Kept s (s.busReadPair lo hi).2 :=
  (s.busRead_kept lo).trans (State.busRead_kept hi _)

theorem State.rawWrite_kept (a : Word) (v : Byte) (s : State) : Kept s (s.rawWrite a v) :=
  ⟨rfl, rfl, fun h => ⟨State.wf_rawWrite h.1 a v, h.2.1, h.2.2⟩⟩

theorem State.atRegister_kept {action : State → State} (h : ∀ t, Kept t (action t)) (addr reg : Word) (s : State) :
    Kept s (s.atRegister addr reg action) := by
  unfold State.atRegister
  split
  · exact h s
  · exact Kept.refl s

theorem State.ifrWrite_kept (v : Byte) (s : State) : Kept s (s.ifrWrite v) := by
  unfold State.ifrWrite
  split
  · exact Kept.refl s
  · refine ⟨rfl, rfl, fun h => ⟨h.1, by simp only [h.2.1], ?_⟩⟩
    show (s.pending &&& ~~~(v.setWidth 7)) &&& ~~~sourceBits s.cfg = 0
    rw [BitVec.and_assoc, BitVec.and_comm (~~~_), ← BitVec.and_assoc, h.2.2]
    simp

theorem State.ierWrite_kept (v : Byte) (s : State) : Kept s (s.ierWrite v) := by
  unfold State.ierWrite
  split <;> exact ⟨rfl, rfl, id⟩

theorem State.orbWrite_kept (v : Byte) (s : State) : Kept s (s.orbWrite v) := ⟨rfl, rfl, id⟩
theorem State.ddraWrite_kept (v : Byte) (s : State) : Kept s (s.ddraWrite v) := ⟨rfl, rfl, id⟩
theorem State.kbdWrite_kept (v : Byte) (s : State) : Kept s (s.kbdWrite v) := ⟨rfl, rfl, id⟩

theorem State.viaWrite_kept (v : Byte) (a : Word) (s : State) : Kept s (s.viaWrite v a) :=
  (s.atRegister_kept (State.orbWrite_kept v) a _).trans <| (State.atRegister_kept (State.ddraWrite_kept v) a _ _).trans <|
    (State.atRegister_kept (State.ifrWrite_kept v) a _ _).trans <|
    (State.atRegister_kept (State.ierWrite_kept v) a _ _).trans <| State.atRegister_kept (State.kbdWrite_kept v) a _ _

theorem runWriteHooks_kept (hs : List Hook) (v old : Byte) (a : Word) (s : State) :
    Kept s (runWriteHooks hs v old a s) := by
  induction hs generalizing s with
  | nil => exact Kept.refl s
  | cons h rest ih => cases h; exact (State.viaWrite_kept v a s).trans (ih _)

theorem State.memWrite_kept (a : Word) (v : Byte) (s : State) : Kept s (s.memWrite a v) :=
  (s.rawWrite_kept a v).trans (runWriteHooks_kept _ _ _ _ _)

theorem State.busWrite_kept (a : Word) (v : Byte) (s : State) : Kept s (s.busWrite a v) :=
  s.interleave_kept.trans (State.memWrite_kept a v _)

theorem State.push_kept (v : Byte) (s : State) : Kept s (s.push v) :=
  (s.rawWrite_kept (stackAddr s.sp) v).trans (Kept.registers rfl)

theorem State.busPush_kept (v : Byte) (s : State) : Kept s (s.busPush v) :=
  s.interleave_kept.trans (State.push_kept v _)

theorem State.busPull_kept (s : State) : Kept s s.busPull.2 :=
  s.interleave_kept.trans (Kept.registers rfl)

theorem State.busPull16_kept (s : State) : Kept s s.busPull16.2 := s.busPull_kept.trans (State.busPull_kept _)

theorem State.enterHandler_kept (ret : Word) (status : Byte) (s : State) : Kept s (s.enterHandler ret status) :=
  (s.push_kept (hi8 ret)).trans <| (State.busPush_kept (lo8 ret) _).trans <| (State.busPush_kept status _).trans <|
    (Kept.registers rfl).trans <| (State.busReadPair_kept _ _ _).trans (Kept.registers rfl)

theorem State.returnFromHandler_kept (s : State) : Kept s s.returnFromHandler :=
  s.busPull_kept.trans <| (Kept.registers rfl).trans <| (State.busPull16_kept _).trans (Kept.registers rfl)

theorem State.poll_kept (s : State) : Kept s s.poll := by
  rcases s.poll_cases with h | ⟨h, _⟩
  · rw [h]; exact Kept.refl s
  · rw [h]; exact s.enterHandler_kept _ _

theorem State.nextHandler_kept (s : State) : Kept s s.nextHandler.2 := by
  unfold State.nextHandler
  split <;> exact ⟨rfl, rfl, id⟩

theorem State.writes_kept (ws : List (Word × Byte)) (s : State) :
    Kept s (ws.foldl (fun t w => t.memWrite w.1 w.2) s) := by
  induction ws generalizing s with
  | nil => exact Kept.refl s
  | cons w rest ih => exact (s.memWrite_kept w.1 w.2).trans (ih _)

theorem State.applyHandler_kept (e : HandlerEffect) (s : State) : Kept s (s.applyHandler e) :=
  (s.writes_kept e.writes).trans (Kept.registers rfl)

theorem State.intercept_kept (w : Word) (s : State) : Kept s (s.intercept w).2 := by
  unfold State.intercept
  split
  · exact s.interleave_kept.trans ((State.nextHandler_kept _).trans (State.applyHandler_kept _ _))
  · exact Kept.refl s

theorem effectiveAddress_kept {op : Byte} {o : Operand} {s s1 : State} {ea : Word}
    (h : effectiveAddress op o s = .ok (ea, s1)) : Kept s s1 := by
  cases o <;> cases h <;> first | exact Kept.refl s | exact s.busReadPair_kept _ _

theorem memoryAddress_kept {op : Byte} {o : Operand} {s s1 : State} {ea : Word}
    (h : memoryAddress op o s = .ok (ea, s1)) : Kept s s1 := by
  unfold memoryAddress at h
  split at h
  · exact effectiveAddress_kept h
  · cases h

theorem operandByte_kept {op : Byte} {o : Operand} {s s1 : State} {m : Byte}
    (h : operandByte op o s = .ok (m, s1)) : Kept s s1 := by
  unfold operandByte at h
  split at h
  · cases h; exact Kept.refl s
  · split at h
    · rename_i ea s2 he
      have e := congrArg Prod.snd (Except.ok.inj h)
      rw [← show (s2.busRead ea).2 = s1 from e]
      exact (memoryAddress_kept he).trans (State.busRead_kept ea s2)
    · cases h

/-- Any next state an outcome answers keeps what `Kept` says. -/
def Keeps (s : State) (o : Outcome State) : Prop := ∀ t, o = .next t → Kept s t

theorem Keeps.next {s t : State} (h : Kept s t) : Keeps s (.next t) := fun _ e => by cases e; exact h

theorem State.advance_kept (n : Nat) (s : State) : Kept s (s.advance n) := Kept.registers rfl
theorem State.jump_kept (w : Word) (s : State) : Kept s (s.jump w) := Kept.registers rfl
theorem State.setReg_kept (r : Reg) (v : Byte) (s : State) : Kept s (s.setReg r v) := by
  cases r <;> exact Kept.registers rfl
theorem State.setZN_kept (v : Byte) (s : State) : Kept s (s.setZN v) := Kept.registers rfl

theorem done_keeps {s t : State} (o : Operand) (h : Kept s t) : Keeps s (done o t) :=
  Keeps.next (h.trans (State.advance_kept _ t))

theorem reading_keeps (op : Byte) (o : Operand) (s : State) {f : Byte → State → State} (h : ∀ m t, Kept t (f m t)) :
    Keeps s (reading op o f s) := by
  unfold reading
  split
  · rename_i m s1 e
    exact done_keeps o ((operandByte_kept e).trans (h m s1))
  · intro t e; cases e

theorem store_keeps (r : Reg) (op : Byte) (o : Operand) (s : State) : Keeps s (store r op o s) := by
  unfold store storing
  split
  · rename_i ea s1 e
    exact done_keeps o ((memoryAddress_kept e).trans (State.busWrite_kept ea _ s1))
  · intro t e; cases e

theorem modifying_keeps (op : Byte) (o : Operand) (s : State) (r : Byte → Bool → Byte)
    {f : Byte → Byte → State → State} (h : ∀ m v t, Kept t (f m v t)) : Keeps s (modifying op o r f s) := by
  unfold modifying
  split
  · exact done_keeps o ((memoryAddress_kept ‹_›).trans ((State.busRead_kept _ _).trans ((State.busWrite_kept _ _ _).trans
      (h _ _ _))))
  · intro t e; cases e

theorem addition_keeps (law : Byte → Byte → Bool → Sum) (op : Byte) (o : Operand) (s : State) :
    Keeps s (addition law op o s) := by
  unfold addition
  split
  · rename_i m s1 e
    split
    · intro t h; cases h
    · have k : Kept s s1 := operandByte_kept e
      exact done_keeps o (k.trans (Kept.registers rfl))
  · intro t e; cases e

theorem load_keeps (r : Reg) (op : Byte) (o : Operand) (s : State) : Keeps s (load r op o s) :=
  reading_keeps op o s fun m t => (t.setReg_kept r m).trans (State.setZN_kept m _)

theorem logical_keeps (f : Byte → Byte → Byte) (op : Byte) (o : Operand) (s : State) : Keeps s (logical f op o s) :=
  reading_keeps op o s fun _ _ => Kept.registers rfl

theorem comparison_keeps (r : Reg) (op : Byte) (o : Operand) (s : State) : Keeps s (comparison r op o s) :=
  reading_keeps op o s fun _ _ => Kept.registers rfl

theorem bitTesting_keeps (op : Byte) (o : Operand) (s : State) : Keeps s (bitTesting op o s) :=
  reading_keeps op o s fun _ _ => Kept.registers rfl

theorem stepMemory_keeps (f : Byte → Byte) (op : Byte) (o : Operand) (s : State) : Keeps s (stepMemory f op o s) :=
  modifying_keeps op o s _ fun _ _ _ => Kept.registers rfl

theorem shiftMemory_keeps (f : Shift) (op : Byte) (o : Operand) (s : State) : Keeps s (shiftMemory f op o s) :=
  modifying_keeps op o s _ fun _ _ _ => Kept.registers rfl

theorem transfer_keeps (src dst : Reg) (s : State) : Keeps s (transfer src dst s) :=
  done_keeps _ ((State.setReg_kept dst _ s).trans (State.setZN_kept _ _))

theorem stepRegister_keeps (f : Byte → Byte) (r : Reg) (s : State) : Keeps s (stepRegister f r s) :=
  done_keeps _ ((State.setReg_kept r _ s).trans (State.setZN_kept _ _))

theorem shiftA_keeps (f : Shift) (s : State) : Keeps s (shiftA f s) := done_keeps _ (Kept.registers rfl)

theorem flagging_keeps (f : Flag) (v : Bool) (s : State) : Keeps s (flagging f v s) :=
  done_keeps _ (Kept.registers rfl)

theorem jumping_keeps (op : Byte) (o : Operand) (s : State) : Keeps s (jumping op o s) := by
  unfold jumping
  split
  · exact Keeps.next ((effectiveAddress_kept ‹_›).trans (State.jump_kept _ _))
  · intro t e; cases e

theorem branching_keeps (f : Flag) (taken : Bool) (op b : Byte) (s : State) : Keeps s (branching f taken op b s) := by
  unfold branching
  split
  · exact jumping_keeps _ _ s
  · exact done_keeps _ (Kept.refl s)

theorem calling_kept (w : Word) (s : State) : Kept s (calling w s) :=
  (s.busPush_kept _).trans ((State.busPush_kept _ _).trans (State.jump_kept w _))

theorem execJsr_keeps (w : Word) (s : State) : Keeps s (execJsr w s) := by
  have k := s.intercept_kept w
  unfold execJsr
  split <;> rename_i t e <;> rw [e] at k
  · exact done_keeps _ k
  · exact Keeps.next (k.trans (calling_kept w t))

/-- A next state of any instruction has the launch parameters, the run status and the invariant of the one before. -/
theorem exec_keeps (i : Instr) (s : State) : Keeps s (exec i s) := by
  cases i with
  | ldaImm b => exact load_keeps .a 0xA9#8 (.immediate b) s
  | ldaZp b => exact load_keeps .a 0xA5#8 (.zeroPage b) s
  | ldaZpX b => exact load_keeps .a 0xB5#8 (.zeroPageX b) s
  | ldaAbs w => exact load_keeps .a 0xAD#8 (.absolute w) s
  | ldaAbsX w => exact load_keeps .a 0xBD#8 (.absoluteX w) s
  | ldaAbsY w => exact load_keeps .a 0xB9#8 (.absoluteY w) s
  | ldaIndX b => exact load_keeps .a 0xA1#8 (.indexedIndirectX b) s
  | ldaIndY b => exact load_keeps .a 0xB1#8 (.indirectIndexedY b) s
  | ldxImm b => exact load_keeps .x 0xA2#8 (.immediate b) s
  | ldxZp b => exact load_keeps .x 0xA6#8 (.zeroPage b) s
  | ldxZpY b => exact load_keeps .x 0xB6#8 (.zeroPageY b) s
  | ldxAbs w => exact load_keeps .x 0xAE#8 (.absolute w) s
  | ldxAbsY w => exact load_keeps .x 0xBE#8 (.absoluteY w) s
  | ldyImm b => exact load_keeps .y 0xA0#8 (.immediate b) s
  | ldyZp b => exact load_keeps .y 0xA4#8 (.zeroPage b) s
  | ldyZpX b => exact load_keeps .y 0xB4#8 (.zeroPageX b) s
  | ldyAbs w => exact load_keeps .y 0xAC#8 (.absolute w) s
  | ldyAbsX w => exact load_keeps .y 0xBC#8 (.absoluteX w) s
  | staZp b => exact store_keeps .a 0x85#8 (.zeroPage b) s
  | staZpX b => exact store_keeps .a 0x95#8 (.zeroPageX b) s
  | staAbs w => exact store_keeps .a 0x8D#8 (.absolute w) s
  | staAbsX w => exact store_keeps .a 0x9D#8 (.absoluteX w) s
  | staAbsY w => exact store_keeps .a 0x99#8 (.absoluteY w) s
  | staIndX b => exact store_keeps .a 0x81#8 (.indexedIndirectX b) s
  | staIndY b => exact store_keeps .a 0x91#8 (.indirectIndexedY b) s
  | stxZp b => exact store_keeps .x 0x86#8 (.zeroPage b) s
  | stxZpY b => exact store_keeps .x 0x96#8 (.zeroPageY b) s
  | stxAbs w => exact store_keeps .x 0x8E#8 (.absolute w) s
  | styZp b => exact store_keeps .y 0x84#8 (.zeroPage b) s
  | styZpX b => exact store_keeps .y 0x94#8 (.zeroPageX b) s
  | styAbs w => exact store_keeps .y 0x8C#8 (.absolute w) s
  | tax => exact transfer_keeps .a .x s
  | tay => exact transfer_keeps .a .y s
  | txa => exact transfer_keeps .x .a s
  | tya => exact transfer_keeps .y .a s
  | tsx => exact transfer_keeps .s .x s
  | txs => exact done_keeps _ (State.setReg_kept .s s.x s)
  | pha => exact done_keeps _ (State.busPush_kept _ s)
  | php => exact done_keeps _ (State.busPush_kept _ s)
  | pla => exact done_keeps _ (s.busPull_kept.trans (Kept.registers rfl))
  | plp => exact done_keeps _ (s.busPull_kept.trans (Kept.registers rfl))
  | adcImm b => exact addition_keeps add8 0x69#8 (.immediate b) s
  | adcZp b => exact addition_keeps add8 0x65#8 (.zeroPage b) s
  | adcZpX b => exact addition_keeps add8 0x75#8 (.zeroPageX b) s
  | adcAbs w => exact addition_keeps add8 0x6D#8 (.absolute w) s
  | adcAbsX w => exact addition_keeps add8 0x7D#8 (.absoluteX w) s
  | adcAbsY w => exact addition_keeps add8 0x79#8 (.absoluteY w) s
  | adcIndX b => exact addition_keeps add8 0x61#8 (.indexedIndirectX b) s
  | adcIndY b => exact addition_keeps add8 0x71#8 (.indirectIndexedY b) s
  | sbcImm b => exact addition_keeps sub8 0xE9#8 (.immediate b) s
  | sbcZp b => exact addition_keeps sub8 0xE5#8 (.zeroPage b) s
  | sbcZpX b => exact addition_keeps sub8 0xF5#8 (.zeroPageX b) s
  | sbcAbs w => exact addition_keeps sub8 0xED#8 (.absolute w) s
  | sbcAbsX w => exact addition_keeps sub8 0xFD#8 (.absoluteX w) s
  | sbcAbsY w => exact addition_keeps sub8 0xF9#8 (.absoluteY w) s
  | sbcIndX b => exact addition_keeps sub8 0xE1#8 (.indexedIndirectX b) s
  | sbcIndY b => exact addition_keeps sub8 0xF1#8 (.indirectIndexedY b) s
  | cmpImm b => exact comparison_keeps .a 0xC9#8 (.immediate b) s
  | cmpZp b => exact comparison_keeps .a 0xC5#8 (.zeroPage b) s
  | cmpZpX b => exact comparison_keeps .a 0xD5#8 (.zeroPageX b) s
  | cmpAbs w => exact comparison_keeps .a 0xCD#8 (.absolute w) s
  | cmpAbsX w => exact comparison_keeps .a 0xDD#8 (.absoluteX w) s
  | cmpAbsY w => exact comparison_keeps .a 0xD9#8 (.absoluteY w) s
  | cmpIndX b => exact comparison_keeps .a 0xC1#8 (.indexedIndirectX b) s
  | cmpIndY b => exact comparison_keeps .a 0xD1#8 (.indirectIndexedY b) s
  | cpxImm b => exact comparison_keeps .x 0xE0#8 (.immediate b) s
  | cpxZp b => exact comparison_keeps .x 0xE4#8 (.zeroPage b) s
  | cpxAbs w => exact comparison_keeps .x 0xEC#8 (.absolute w) s
  | cpyImm b => exact comparison_keeps .y 0xC0#8 (.immediate b) s
  | cpyZp b => exact comparison_keeps .y 0xC4#8 (.zeroPage b) s
  | cpyAbs w => exact comparison_keeps .y 0xCC#8 (.absolute w) s
  | incZp b => exact stepMemory_keeps (fun m => m + 1) 0xE6#8 (.zeroPage b) s
  | incZpX b => exact stepMemory_keeps (fun m => m + 1) 0xF6#8 (.zeroPageX b) s
  | incAbs w => exact stepMemory_keeps (fun m => m + 1) 0xEE#8 (.absolute w) s
  | incAbsX w => exact stepMemory_keeps (fun m => m + 1) 0xFE#8 (.absoluteX w) s
  | inx => exact stepRegister_keeps (fun m => m + 1) .x s
  | iny => exact stepRegister_keeps (fun m => m + 1) .y s
  | decZp b => exact stepMemory_keeps (fun m => m - 1) 0xC6#8 (.zeroPage b) s
  | decZpX b => exact stepMemory_keeps (fun m => m - 1) 0xD6#8 (.zeroPageX b) s
  | decAbs w => exact stepMemory_keeps (fun m => m - 1) 0xCE#8 (.absolute w) s
  | decAbsX w => exact stepMemory_keeps (fun m => m - 1) 0xDE#8 (.absoluteX w) s
  | dex => exact stepRegister_keeps (fun m => m - 1) .x s
  | dey => exact stepRegister_keeps (fun m => m - 1) .y s
  | andImm b => exact logical_keeps (fun a m => a &&& m) 0x29#8 (.immediate b) s
  | andZp b => exact logical_keeps (fun a m => a &&& m) 0x25#8 (.zeroPage b) s
  | andZpX b => exact logical_keeps (fun a m => a &&& m) 0x35#8 (.zeroPageX b) s
  | andAbs w => exact logical_keeps (fun a m => a &&& m) 0x2D#8 (.absolute w) s
  | andAbsX w => exact logical_keeps (fun a m => a &&& m) 0x3D#8 (.absoluteX w) s
  | andAbsY w => exact logical_keeps (fun a m => a &&& m) 0x39#8 (.absoluteY w) s
  | andIndX b => exact logical_keeps (fun a m => a &&& m) 0x21#8 (.indexedIndirectX b) s
  | andIndY b => exact logical_keeps (fun a m => a &&& m) 0x31#8 (.indirectIndexedY b) s
  | oraImm b => exact logical_keeps (fun a m => a ||| m) 0x09#8 (.immediate b) s
  | oraZp b => exact logical_keeps (fun a m => a ||| m) 0x05#8 (.zeroPage b) s
  | oraZpX b => exact logical_keeps (fun a m => a ||| m) 0x15#8 (.zeroPageX b) s
  | oraAbs w => exact logical_keeps (fun a m => a ||| m) 0x0D#8 (.absolute w) s
  | oraAbsX w => exact logical_keeps (fun a m => a ||| m) 0x1D#8 (.absoluteX w) s
  | oraAbsY w => exact logical_keeps (fun a m => a ||| m) 0x19#8 (.absoluteY w) s
  | oraIndX b => exact logical_keeps (fun a m => a ||| m) 0x01#8 (.indexedIndirectX b) s
  | oraIndY b => exact logical_keeps (fun a m => a ||| m) 0x11#8 (.indirectIndexedY b) s
  | eorImm b => exact logical_keeps (fun a m => a ^^^ m) 0x49#8 (.immediate b) s
  | eorZp b => exact logical_keeps (fun a m => a ^^^ m) 0x45#8 (.zeroPage b) s
  | eorZpX b => exact logical_keeps (fun a m => a ^^^ m) 0x55#8 (.zeroPageX b) s
  | eorAbs w => exact logical_keeps (fun a m => a ^^^ m) 0x4D#8 (.absolute w) s
  | eorAbsX w => exact logical_keeps (fun a m => a ^^^ m) 0x5D#8 (.absoluteX w) s
  | eorAbsY w => exact logical_keeps (fun a m => a ^^^ m) 0x59#8 (.absoluteY w) s
  | eorIndX b => exact logical_keeps (fun a m => a ^^^ m) 0x41#8 (.indexedIndirectX b) s
  | eorIndY b => exact logical_keeps (fun a m => a ^^^ m) 0x51#8 (.indirectIndexedY b) s
  | bitZp b => exact bitTesting_keeps 0x24#8 (.zeroPage b) s
  | bitAbs w => exact bitTesting_keeps 0x2C#8 (.absolute w) s
  | aslAcc => exact shiftA_keeps .asl s
  | aslZp b => exact shiftMemory_keeps .asl 0x06#8 (.zeroPage b) s
  | aslZpX b => exact shiftMemory_keeps .asl 0x16#8 (.zeroPageX b) s
  | aslAbs w => exact shiftMemory_keeps .asl 0x0E#8 (.absolute w) s
  | aslAbsX w => exact shiftMemory_keeps .asl 0x1E#8 (.absoluteX w) s
  | lsrAcc => exact shiftA_keeps .lsr s
  | lsrZp b => exact shiftMemory_keeps .lsr 0x46#8 (.zeroPage b) s
  | lsrZpX b => exact shiftMemory_keeps .lsr 0x56#8 (.zeroPageX b) s
  | lsrAbs w => exact shiftMemory_keeps .lsr 0x4E#8 (.absolute w) s
  | lsrAbsX w => exact shiftMemory_keeps .lsr 0x5E#8 (.absoluteX w) s
  | rolAcc => exact shiftA_keeps .rol s
  | rolZp b => exact shiftMemory_keeps .rol 0x26#8 (.zeroPage b) s
  | rolZpX b => exact shiftMemory_keeps .rol 0x36#8 (.zeroPageX b) s
  | rolAbs w => exact shiftMemory_keeps .rol 0x2E#8 (.absolute w) s
  | rolAbsX w => exact shiftMemory_keeps .rol 0x3E#8 (.absoluteX w) s
  | rorAcc => exact shiftA_keeps .ror s
  | rorZp b => exact shiftMemory_keeps .ror 0x66#8 (.zeroPage b) s
  | rorZpX b => exact shiftMemory_keeps .ror 0x76#8 (.zeroPageX b) s
  | rorAbs w => exact shiftMemory_keeps .ror 0x6E#8 (.absolute w) s
  | rorAbsX w => exact shiftMemory_keeps .ror 0x7E#8 (.absoluteX w) s
  | jmpAbs w => exact jumping_keeps 0x4C#8 (.absolute w) s
  | jmpInd w => exact jumping_keeps 0x6C#8 (.indirect w) s
  | jsr w => exact execJsr_keeps w s
  | rts => exact Keeps.next (s.busPull16_kept.trans (State.jump_kept _ _))
  | bcc b => exact branching_keeps .c false 0x90#8 b s
  | bcs b => exact branching_keeps .c true 0xB0#8 b s
  | beq b => exact branching_keeps .z true 0xF0#8 b s
  | bne b => exact branching_keeps .z false 0xD0#8 b s
  | bmi b => exact branching_keeps .n true 0x30#8 b s
  | bpl b => exact branching_keeps .n false 0x10#8 b s
  | bvc b => exact branching_keeps .v false 0x50#8 b s
  | bvs b => exact branching_keeps .v true 0x70#8 b s
  | clc => exact flagging_keeps .c false s
  | sec => exact flagging_keeps .c true s
  | cli => exact flagging_keeps .i false s
  | sei => exact flagging_keeps .i true s
  | cld => exact flagging_keeps .d false s
  | sed => exact flagging_keeps .d true s
  | clv => exact flagging_keeps .v false s
  | nop => exact done_keeps _ (Kept.refl s)
  | brk => exact Keeps.next (s.interleave_kept.trans (State.enterHandler_kept _ _ _))
  | rti => exact Keeps.next s.returnFromHandler_kept

end Sys2Proof.Machine
end

