-- ==== Sys2Proof/Laws/PerInstr.lean ====
section
/-! SUPPORT. The families of LAWS.json's per_instruction: one statement about an instruction as syntax, and one lemma per
constructor. -/

namespace Sys2Proof.Laws.EncodedLength

/-- The encoder writes as many bytes as the instruction's length, which the PC advances by (R100, R142). -/
def Statement (i : Instr) : Prop := (encode i).length = i.length

theorem ldaImm (b : Byte) : Statement (.ldaImm b) := rfl
theorem ldaZp (b : Byte) : Statement (.ldaZp b) := rfl
theorem ldaZpX (b : Byte) : Statement (.ldaZpX b) := rfl
theorem ldaAbs (w : Word) : Statement (.ldaAbs w) := rfl
theorem ldaAbsX (w : Word) : Statement (.ldaAbsX w) := rfl
theorem ldaAbsY (w : Word) : Statement (.ldaAbsY w) := rfl
theorem ldaIndX (b : Byte) : Statement (.ldaIndX b) := rfl
theorem ldaIndY (b : Byte) : Statement (.ldaIndY b) := rfl
theorem ldxImm (b : Byte) : Statement (.ldxImm b) := rfl
theorem ldxZp (b : Byte) : Statement (.ldxZp b) := rfl
theorem ldxZpY (b : Byte) : Statement (.ldxZpY b) := rfl
theorem ldxAbs (w : Word) : Statement (.ldxAbs w) := rfl
theorem ldxAbsY (w : Word) : Statement (.ldxAbsY w) := rfl
theorem ldyImm (b : Byte) : Statement (.ldyImm b) := rfl
theorem ldyZp (b : Byte) : Statement (.ldyZp b) := rfl
theorem ldyZpX (b : Byte) : Statement (.ldyZpX b) := rfl
theorem ldyAbs (w : Word) : Statement (.ldyAbs w) := rfl
theorem ldyAbsX (w : Word) : Statement (.ldyAbsX w) := rfl
theorem staZp (b : Byte) : Statement (.staZp b) := rfl
theorem staZpX (b : Byte) : Statement (.staZpX b) := rfl
theorem staAbs (w : Word) : Statement (.staAbs w) := rfl
theorem staAbsX (w : Word) : Statement (.staAbsX w) := rfl
theorem staAbsY (w : Word) : Statement (.staAbsY w) := rfl
theorem staIndX (b : Byte) : Statement (.staIndX b) := rfl
theorem staIndY (b : Byte) : Statement (.staIndY b) := rfl
theorem stxZp (b : Byte) : Statement (.stxZp b) := rfl
theorem stxZpY (b : Byte) : Statement (.stxZpY b) := rfl
theorem stxAbs (w : Word) : Statement (.stxAbs w) := rfl
theorem styZp (b : Byte) : Statement (.styZp b) := rfl
theorem styZpX (b : Byte) : Statement (.styZpX b) := rfl
theorem styAbs (w : Word) : Statement (.styAbs w) := rfl
theorem tax : Statement (.tax) := rfl
theorem tay : Statement (.tay) := rfl
theorem txa : Statement (.txa) := rfl
theorem tya : Statement (.tya) := rfl
theorem tsx : Statement (.tsx) := rfl
theorem txs : Statement (.txs) := rfl
theorem pha : Statement (.pha) := rfl
theorem php : Statement (.php) := rfl
theorem pla : Statement (.pla) := rfl
theorem plp : Statement (.plp) := rfl
theorem adcImm (b : Byte) : Statement (.adcImm b) := rfl
theorem adcZp (b : Byte) : Statement (.adcZp b) := rfl
theorem adcZpX (b : Byte) : Statement (.adcZpX b) := rfl
theorem adcAbs (w : Word) : Statement (.adcAbs w) := rfl
theorem adcAbsX (w : Word) : Statement (.adcAbsX w) := rfl
theorem adcAbsY (w : Word) : Statement (.adcAbsY w) := rfl
theorem adcIndX (b : Byte) : Statement (.adcIndX b) := rfl
theorem adcIndY (b : Byte) : Statement (.adcIndY b) := rfl
theorem sbcImm (b : Byte) : Statement (.sbcImm b) := rfl
theorem sbcZp (b : Byte) : Statement (.sbcZp b) := rfl
theorem sbcZpX (b : Byte) : Statement (.sbcZpX b) := rfl
theorem sbcAbs (w : Word) : Statement (.sbcAbs w) := rfl
theorem sbcAbsX (w : Word) : Statement (.sbcAbsX w) := rfl
theorem sbcAbsY (w : Word) : Statement (.sbcAbsY w) := rfl
theorem sbcIndX (b : Byte) : Statement (.sbcIndX b) := rfl
theorem sbcIndY (b : Byte) : Statement (.sbcIndY b) := rfl
theorem cmpImm (b : Byte) : Statement (.cmpImm b) := rfl
theorem cmpZp (b : Byte) : Statement (.cmpZp b) := rfl
theorem cmpZpX (b : Byte) : Statement (.cmpZpX b) := rfl
theorem cmpAbs (w : Word) : Statement (.cmpAbs w) := rfl
theorem cmpAbsX (w : Word) : Statement (.cmpAbsX w) := rfl
theorem cmpAbsY (w : Word) : Statement (.cmpAbsY w) := rfl
theorem cmpIndX (b : Byte) : Statement (.cmpIndX b) := rfl
theorem cmpIndY (b : Byte) : Statement (.cmpIndY b) := rfl
theorem cpxImm (b : Byte) : Statement (.cpxImm b) := rfl
theorem cpxZp (b : Byte) : Statement (.cpxZp b) := rfl
theorem cpxAbs (w : Word) : Statement (.cpxAbs w) := rfl
theorem cpyImm (b : Byte) : Statement (.cpyImm b) := rfl
theorem cpyZp (b : Byte) : Statement (.cpyZp b) := rfl
theorem cpyAbs (w : Word) : Statement (.cpyAbs w) := rfl
theorem incZp (b : Byte) : Statement (.incZp b) := rfl
theorem incZpX (b : Byte) : Statement (.incZpX b) := rfl
theorem incAbs (w : Word) : Statement (.incAbs w) := rfl
theorem incAbsX (w : Word) : Statement (.incAbsX w) := rfl
theorem inx : Statement (.inx) := rfl
theorem iny : Statement (.iny) := rfl
theorem decZp (b : Byte) : Statement (.decZp b) := rfl
theorem decZpX (b : Byte) : Statement (.decZpX b) := rfl
theorem decAbs (w : Word) : Statement (.decAbs w) := rfl
theorem decAbsX (w : Word) : Statement (.decAbsX w) := rfl
theorem dex : Statement (.dex) := rfl
theorem dey : Statement (.dey) := rfl
theorem andImm (b : Byte) : Statement (.andImm b) := rfl
theorem andZp (b : Byte) : Statement (.andZp b) := rfl
theorem andZpX (b : Byte) : Statement (.andZpX b) := rfl
theorem andAbs (w : Word) : Statement (.andAbs w) := rfl
theorem andAbsX (w : Word) : Statement (.andAbsX w) := rfl
theorem andAbsY (w : Word) : Statement (.andAbsY w) := rfl
theorem andIndX (b : Byte) : Statement (.andIndX b) := rfl
theorem andIndY (b : Byte) : Statement (.andIndY b) := rfl
theorem oraImm (b : Byte) : Statement (.oraImm b) := rfl
theorem oraZp (b : Byte) : Statement (.oraZp b) := rfl
theorem oraZpX (b : Byte) : Statement (.oraZpX b) := rfl
theorem oraAbs (w : Word) : Statement (.oraAbs w) := rfl
theorem oraAbsX (w : Word) : Statement (.oraAbsX w) := rfl
theorem oraAbsY (w : Word) : Statement (.oraAbsY w) := rfl
theorem oraIndX (b : Byte) : Statement (.oraIndX b) := rfl
theorem oraIndY (b : Byte) : Statement (.oraIndY b) := rfl
theorem eorImm (b : Byte) : Statement (.eorImm b) := rfl
theorem eorZp (b : Byte) : Statement (.eorZp b) := rfl
theorem eorZpX (b : Byte) : Statement (.eorZpX b) := rfl
theorem eorAbs (w : Word) : Statement (.eorAbs w) := rfl
theorem eorAbsX (w : Word) : Statement (.eorAbsX w) := rfl
theorem eorAbsY (w : Word) : Statement (.eorAbsY w) := rfl
theorem eorIndX (b : Byte) : Statement (.eorIndX b) := rfl
theorem eorIndY (b : Byte) : Statement (.eorIndY b) := rfl
theorem bitZp (b : Byte) : Statement (.bitZp b) := rfl
theorem bitAbs (w : Word) : Statement (.bitAbs w) := rfl
theorem aslAcc : Statement (.aslAcc) := rfl
theorem aslZp (b : Byte) : Statement (.aslZp b) := rfl
theorem aslZpX (b : Byte) : Statement (.aslZpX b) := rfl
theorem aslAbs (w : Word) : Statement (.aslAbs w) := rfl
theorem aslAbsX (w : Word) : Statement (.aslAbsX w) := rfl
theorem lsrAcc : Statement (.lsrAcc) := rfl
theorem lsrZp (b : Byte) : Statement (.lsrZp b) := rfl
theorem lsrZpX (b : Byte) : Statement (.lsrZpX b) := rfl
theorem lsrAbs (w : Word) : Statement (.lsrAbs w) := rfl
theorem lsrAbsX (w : Word) : Statement (.lsrAbsX w) := rfl
theorem rolAcc : Statement (.rolAcc) := rfl
theorem rolZp (b : Byte) : Statement (.rolZp b) := rfl
theorem rolZpX (b : Byte) : Statement (.rolZpX b) := rfl
theorem rolAbs (w : Word) : Statement (.rolAbs w) := rfl
theorem rolAbsX (w : Word) : Statement (.rolAbsX w) := rfl
theorem rorAcc : Statement (.rorAcc) := rfl
theorem rorZp (b : Byte) : Statement (.rorZp b) := rfl
theorem rorZpX (b : Byte) : Statement (.rorZpX b) := rfl
theorem rorAbs (w : Word) : Statement (.rorAbs w) := rfl
theorem rorAbsX (w : Word) : Statement (.rorAbsX w) := rfl
theorem jmpAbs (w : Word) : Statement (.jmpAbs w) := rfl
theorem jmpInd (w : Word) : Statement (.jmpInd w) := rfl
theorem jsr (w : Word) : Statement (.jsr w) := rfl
theorem rts : Statement (.rts) := rfl
theorem bcc (b : Byte) : Statement (.bcc b) := rfl
theorem bcs (b : Byte) : Statement (.bcs b) := rfl
theorem beq (b : Byte) : Statement (.beq b) := rfl
theorem bne (b : Byte) : Statement (.bne b) := rfl
theorem bmi (b : Byte) : Statement (.bmi b) := rfl
theorem bpl (b : Byte) : Statement (.bpl b) := rfl
theorem bvc (b : Byte) : Statement (.bvc b) := rfl
theorem bvs (b : Byte) : Statement (.bvs b) := rfl
theorem clc : Statement (.clc) := rfl
theorem sec : Statement (.sec) := rfl
theorem cli : Statement (.cli) := rfl
theorem sei : Statement (.sei) := rfl
theorem cld : Statement (.cld) := rfl
theorem sed : Statement (.sed) := rfl
theorem clv : Statement (.clv) := rfl
theorem nop : Statement (.nop) := rfl
theorem brk : Statement (.brk) := rfl
theorem rti : Statement (.rti) := rfl

end Sys2Proof.Laws.EncodedLength
end

