-- ==== Sys2Proof/Tests/Slice0.lean ====
section
/-! SUPPORT. The model's own tests: one-step vectors of spec/95_test_vectors.md, decodings written out from R108, the
well-formedness smoke tests, and for each obligation that has hypotheses a state and operands that meet them. -/

namespace Sys2Proof.Tests

open Sys2Proof.Machine Sys2Proof.Claims

/-- The default state of 95_test_vectors.md section 0; a fixture, not a reset state. -/
def fixture : State := { State.reset with sp := 0xFF#8, p := 0x00#8, pc := 0x0200#16 }

/-- A state with some cells set. -/
def cells (cs : List (Word × Byte)) (s : State) : State := cs.foldl (fun t c => t.rawWrite c.1 c.2) s

/-- A state with instruction bytes at PC. -/
def loaded (bytes : List Byte) (s : State) : State := storeBytes bytes s.pc s

/-- The state one step leaves, with the run status recorded. -/
def after (bytes : List Byte) (s : State) : State := settle (loaded bytes s)

/-- Whether every word of a list decodes to the instruction beside it. -/
def decodesTo (ws : List (Nat × Nat × Instr)) : Bool := ws.all fun q => decodeTableWord q.1 q.2.1 == some q.2.2

/-! ### Well-formedness: a pair no row has, for each shape of mode list (R109) -/

theorem test_wellformed_no_store_immediate : wellFormedPair .sta (.immediate 0x00) = false := by decide
theorem test_wellformed_no_stx_zeropage_x : wellFormedPair .stx (.zeroPageX 0x10) = false := by decide
theorem test_wellformed_no_ldx_absolute_x : wellFormedPair .ldx (.absoluteX 0x1234) = false := by decide
theorem test_wellformed_no_bit_immediate : wellFormedPair .bit (.immediate 0x01) = false := by decide
theorem test_wellformed_no_inc_accumulator : wellFormedPair .inc .accumulator = false := by decide
theorem test_wellformed_no_jsr_indirect : wellFormedPair .jsr (.indirect 0x1234) = false := by decide
theorem test_wellformed_no_branch_absolute : wellFormedPair .bne (.absolute 0x0200) = false := by decide
theorem test_wellformed_no_asl_implied : wellFormedPair .asl .implied = false := by decide
theorem test_wellformed_sta_absolute : (Instr.staAbs 0xFE4D).wellFormed = true := by decide

/-! ### Decoding: every constructor, from the encoding column of R108 with operands 0xA5 and 0x1234 -/

theorem test_decode_load : decodesTo [
    (16, 0xA5A9, .ldaImm 0xA5), (16, 0xA5A5, .ldaZp 0xA5), (16, 0xA5B5, .ldaZpX 0xA5), (24, 0x1234AD, .ldaAbs 0x1234),
    (24, 0x1234BD, .ldaAbsX 0x1234), (24, 0x1234B9, .ldaAbsY 0x1234), (16, 0xA5A1, .ldaIndX 0xA5), (16, 0xA5B1,
      .ldaIndY 0xA5),
    (16, 0xA5A2, .ldxImm 0xA5), (16, 0xA5A6, .ldxZp 0xA5), (16, 0xA5B6, .ldxZpY 0xA5), (24, 0x1234AE, .ldxAbs 0x1234),
    (24, 0x1234BE, .ldxAbsY 0x1234), (16, 0xA5A0, .ldyImm 0xA5), (16, 0xA5A4, .ldyZp 0xA5), (16, 0xA5B4,
      .ldyZpX 0xA5),
    (24, 0x1234AC, .ldyAbs 0x1234), (24, 0x1234BC, .ldyAbsX 0x1234)] = true := by decide +kernel

theorem test_decode_store : decodesTo [
    (16, 0xA585, .staZp 0xA5), (16, 0xA595, .staZpX 0xA5), (24, 0x12348D, .staAbs 0x1234), (24, 0x12349D,
      .staAbsX 0x1234),
    (24, 0x123499, .staAbsY 0x1234), (16, 0xA581, .staIndX 0xA5), (16, 0xA591, .staIndY 0xA5), (16, 0xA586,
      .stxZp 0xA5),
    (16, 0xA596, .stxZpY 0xA5), (24, 0x12348E, .stxAbs 0x1234), (16, 0xA584, .styZp 0xA5), (16, 0xA594, .styZpX 0xA5),
    (24, 0x12348C, .styAbs 0x1234)] = true := by decide +kernel

theorem test_decode_transfer_stack : decodesTo [
    (8, 0xAA, .tax), (8, 0xA8, .tay), (8, 0x8A, .txa), (8, 0x98, .tya),
    (8, 0xBA, .tsx), (8, 0x9A, .txs), (8, 0x48, .pha), (8, 0x08, .php),
    (8, 0x68, .pla), (8, 0x28, .plp)] = true := by decide +kernel

theorem test_decode_add_subtract : decodesTo [
    (16, 0xA569, .adcImm 0xA5), (16, 0xA565, .adcZp 0xA5), (16, 0xA575, .adcZpX 0xA5), (24, 0x12346D, .adcAbs 0x1234),
    (24, 0x12347D, .adcAbsX 0x1234), (24, 0x123479, .adcAbsY 0x1234), (16, 0xA561, .adcIndX 0xA5), (16, 0xA571,
      .adcIndY 0xA5),
    (16, 0xA5E9, .sbcImm 0xA5), (16, 0xA5E5, .sbcZp 0xA5), (16, 0xA5F5, .sbcZpX 0xA5), (24, 0x1234ED, .sbcAbs 0x1234),
    (24, 0x1234FD, .sbcAbsX 0x1234), (24, 0x1234F9, .sbcAbsY 0x1234), (16, 0xA5E1, .sbcIndX 0xA5), (16, 0xA5F1,
      .sbcIndY 0xA5)] = true := by decide +kernel

theorem test_decode_compare_step : decodesTo [
    (16, 0xA5C9, .cmpImm 0xA5), (16, 0xA5C5, .cmpZp 0xA5), (16, 0xA5D5, .cmpZpX 0xA5), (24, 0x1234CD, .cmpAbs 0x1234),
    (24, 0x1234DD, .cmpAbsX 0x1234), (24, 0x1234D9, .cmpAbsY 0x1234), (16, 0xA5C1, .cmpIndX 0xA5), (16, 0xA5D1,
      .cmpIndY 0xA5),
    (16, 0xA5E0, .cpxImm 0xA5), (16, 0xA5E4, .cpxZp 0xA5), (24, 0x1234EC, .cpxAbs 0x1234), (16, 0xA5C0, .cpyImm 0xA5),
    (16, 0xA5C4, .cpyZp 0xA5), (24, 0x1234CC, .cpyAbs 0x1234), (16, 0xA5E6, .incZp 0xA5), (16, 0xA5F6, .incZpX 0xA5),
    (24, 0x1234EE, .incAbs 0x1234), (24, 0x1234FE, .incAbsX 0x1234), (8, 0xE8, .inx), (8, 0xC8, .iny),
    (16, 0xA5C6, .decZp 0xA5), (16, 0xA5D6, .decZpX 0xA5), (24, 0x1234CE, .decAbs 0x1234), (24, 0x1234DE,
      .decAbsX 0x1234),
    (8, 0xCA, .dex), (8, 0x88, .dey)] = true := by decide +kernel

theorem test_decode_logic : decodesTo [
    (16, 0xA529, .andImm 0xA5), (16, 0xA525, .andZp 0xA5), (16, 0xA535, .andZpX 0xA5), (24, 0x12342D, .andAbs 0x1234),
    (24, 0x12343D, .andAbsX 0x1234), (24, 0x123439, .andAbsY 0x1234), (16, 0xA521, .andIndX 0xA5), (16, 0xA531,
      .andIndY 0xA5),
    (16, 0xA509, .oraImm 0xA5), (16, 0xA505, .oraZp 0xA5), (16, 0xA515, .oraZpX 0xA5), (24, 0x12340D, .oraAbs 0x1234),
    (24, 0x12341D, .oraAbsX 0x1234), (24, 0x123419, .oraAbsY 0x1234), (16, 0xA501, .oraIndX 0xA5), (16, 0xA511,
      .oraIndY 0xA5),
    (16, 0xA549, .eorImm 0xA5), (16, 0xA545, .eorZp 0xA5), (16, 0xA555, .eorZpX 0xA5), (24, 0x12344D, .eorAbs 0x1234),
    (24, 0x12345D, .eorAbsX 0x1234), (24, 0x123459, .eorAbsY 0x1234), (16, 0xA541, .eorIndX 0xA5), (16, 0xA551,
      .eorIndY 0xA5),
    (16, 0xA524, .bitZp 0xA5), (24, 0x12342C, .bitAbs 0x1234)] = true := by decide +kernel

theorem test_decode_shift : decodesTo [
    (8, 0x0A, .aslAcc), (16, 0xA506, .aslZp 0xA5), (16, 0xA516, .aslZpX 0xA5), (24, 0x12340E, .aslAbs 0x1234),
    (24, 0x12341E, .aslAbsX 0x1234), (8, 0x4A, .lsrAcc), (16, 0xA546, .lsrZp 0xA5), (16, 0xA556, .lsrZpX 0xA5),
    (24, 0x12344E, .lsrAbs 0x1234), (24, 0x12345E, .lsrAbsX 0x1234), (8, 0x2A, .rolAcc), (16, 0xA526, .rolZp 0xA5),
    (16, 0xA536, .rolZpX 0xA5), (24, 0x12342E, .rolAbs 0x1234), (24, 0x12343E, .rolAbsX 0x1234), (8, 0x6A, .rorAcc),
    (16, 0xA566, .rorZp 0xA5), (16, 0xA576, .rorZpX 0xA5), (24, 0x12346E, .rorAbs 0x1234), (24, 0x12347E,
      .rorAbsX 0x1234)] = true := by decide +kernel

theorem test_decode_control : decodesTo [
    (24, 0x12344C, .jmpAbs 0x1234), (24, 0x12346C, .jmpInd 0x1234), (24, 0x123420, .jsr 0x1234), (8, 0x60, .rts),
    (16, 0xA590, .bcc 0xA5), (16, 0xA5B0, .bcs 0xA5), (16, 0xA5F0, .beq 0xA5), (16, 0xA5D0, .bne 0xA5),
    (16, 0xA530, .bmi 0xA5), (16, 0xA510, .bpl 0xA5), (16, 0xA550, .bvc 0xA5), (16, 0xA570,
      .bvs 0xA5)] = true := by decide +kernel

theorem test_decode_flags_system : decodesTo [
    (8, 0x18, .clc), (8, 0x38, .sec), (8, 0x58, .cli), (8, 0x78, .sei),
    (8, 0xD8, .cld), (8, 0xF8, .sed), (8, 0xB8, .clv), (8, 0xEA, .nop),
    (8, 0x00, .brk), (8, 0x40, .rti)] = true := by decide +kernel

/-- R112: bytes with no row, at each end of the map and in the middle. -/
theorem test_decode_invalid : [0x02, 0x03, 0x80, 0x9C, 0xFA, 0xFF].all (fun op => !isValid op) = true := by decide
/-- R402: the table claims no byte twice, and has 151 rows. -/
theorem test_decode_no_duplicate : duplicateOpcode decoderTable = none ∧ decoderTable.length = 151 := by decide +kernel
/-- R100: an opcode byte without its operand bytes is no instruction. -/
theorem test_decode_truncated : decode [0xAD, 0x34] = .error (.truncated 0xAD) := rfl
/-- The reset fetch runs what is placed: LDA #$80. -/
theorem test_fetch_word : (settle (State.reset.withFetchWord 16 0x80A9)).a = 0x80 := by decide

/-! ### One-step vectors (95_test_vectors.md section 2) -/

/-- AD-1. -/
theorem test_lda_ad_1 : (fun t : State => (t.a, t.pc, t.p))
    (after [0xB5, 0xF0] (cells [(0x0010, 0x55)] { fixture with x := 0x20 })) =
    (0x55, 0x0202, 0x00) := by decide

/-- AD-2. -/
theorem test_lda_ad_2 : (fun t : State => (t.a, t.pc, t.p))
    (after [0xBD, 0xF0, 0xFF] (cells [(0x0010, 0x66)] { fixture with x := 0x20 })) =
    (0x66, 0x0203, 0x00) := by decide

/-- AD-3. -/
theorem test_lda_ad_3 : (fun t : State => (t.a, t.pc, t.p))
    (after [0xB9, 0xF0, 0x12] (cells [(0x1310, 0x01)] { fixture with y := 0x20 })) =
    (0x01, 0x0203, 0x00) := by decide

/-- AD-4. -/
theorem test_lda_ad_4 : (fun t : State => (t.a, t.p, t.pc))
    (after [0xA1, 0xFE] (cells [(0x00FF, 0x34), (0x0000, 0x12), (0x1234, 0x99)] { fixture with x := 0x01 })) =
    (0x99, 0x80, 0x0202) := by decide

/-- AD-6. -/
theorem test_lda_ad_6 : (fun t : State => (t.a, t.pc, t.p))
    (after [0xB1, 0xFF] (cells [(0x00FF, 0x00), (0x0000, 0x30), (0x3005, 0x77)] { fixture with y := 0x05 })) =
    (0x77, 0x0202, 0x00) := by decide

/-- AD-8. -/
theorem test_ldx_ad_8 : (fun t : State => (t.x, t.p, t.pc))
    (after [0xB6, 0xFF] (cells [(0x0001, 0x80)] { fixture with y := 0x02 })) =
    (0x80, 0x80, 0x0202) := by decide

/-- AD-9. -/
theorem test_jmp_ad_9 : (fun t : State => (t.pc, t.p))
    (after [0x6C, 0xFF, 0x02] (cells [(0x02FF, 0x34), (0x0200, 0x12), (0x0300, 0x56)]
      { fixture with pc := 0x0400 })) =
    (0x1234, 0x00) := by decide

/-- AD-10. -/
theorem test_jmp_ad_10 : (fun t : State => (t.pc, t.p))
    (after [0x6C, 0xFF, 0x02] (cells [(0x02FF, 0x34), (0x0200, 0x12), (0x0300, 0x56)]
      { fixture with pc := 0x0400, cfg := { Config.default with jmpIndirectPageWrap := false } })) =
    (0x5634, 0x00) := by decide

/-- AD-12. -/
theorem test_nop_ad_12 : (fun t : State => (t.pc, t.p))
    (after [0xEA] { fixture with pc := 0xFFFF }) =
    (0x0000, 0x00) := by decide

/-- AD-13. -/
theorem test_lda_ad_13 : (fun t : State => (t.a, t.pc, t.p))
    (after [0xA9] (cells [(0x0000, 0x42)] { fixture with pc := 0xFFFF })) =
    (0x42, 0x0001, 0x00) := by decide

/-- 41-2. -/
theorem test_lda_41_2 : (fun t : State => (t.a, t.p, t.pc))
    (after [0xA9, 0x80] fixture) =
    (0x80, 0x80, 0x0202) := by decide

/-- 41-3. -/
theorem test_lda_41_3 : (fun t : State => (t.a, t.pc, t.p))
    (after [0xA5, 0x10] (cells [(0x0010, 0x01)] { fixture with p := 0x41 })) =
    (0x01, 0x0202, 0x41) := by decide

/-- 41-4. -/
theorem test_ldx_41_4 : (fun t : State => (t.x, t.p, t.pc))
    (after [0xA2, 0x7F] { fixture with p := 0x82 }) =
    (0x7F, 0x00, 0x0202) := by decide

/-- 41-5. -/
theorem test_ldx_41_5 : (fun t : State => (t.p, t.pc))
    (after [0xBE, 0x34, 0x12] (cells [(0x1235, 0x00)] { fixture with y := 0x01 })) =
    (0x02, 0x0203) := by decide

/-- 41-6. -/
theorem test_ldy_41_6 : (fun t : State => (t.y, t.p, t.pc))
    (after [0xAC, 0x34, 0x12] (cells [(0x1234, 0xFF)] fixture)) =
    (0xFF, 0x80, 0x0203) := by decide

/-- 41-7. -/
theorem test_ldy_41_7 : (fun t : State => (t.y, t.pc, t.p))
    (after [0xB4, 0x10] (cells [(0x0011, 0x40)] { fixture with x := 0x01 })) =
    (0x40, 0x0202, 0x00) := by decide

/-- 41-8. -/
theorem test_sta_41_8 : (fun t : State => (t.pc, t.p))
    (after [0x85, 0x10] { fixture with a := 0x00, p := 0x80 }) =
    (0x0202, 0x80) := by decide

/-- 41-9. -/
theorem test_sta_41_9 : (fun t : State => (t.pc, t.rawRead 0x3010, t.p))
    (after [0x91, 0x20] (cells [(0x0020, 0x00), (0x0021, 0x30)] { fixture with a := 0xAA, y := 0x10 })) =
    (0x0202, 0xAA, 0x00) := by decide

/-- 41-10. -/
theorem test_stx_41_10 : (fun t : State => (t.pc, t.rawRead 0x0000, t.p))
    (after [0x96, 0xFF] { fixture with x := 0xAB, y := 0x01 }) =
    (0x0202, 0xAB, 0x00) := by decide

/-- 41-11. -/
theorem test_sty_41_11 : (fun t : State => (t.pc, t.rawRead 0x0300, t.p))
    (after [0x8C, 0x00, 0x03] { fixture with y := 0x3C }) =
    (0x0203, 0x3C, 0x00) := by decide

/-- 41-12. -/
theorem test_tax_41_12 : (fun t : State => (t.x, t.p, t.pc))
    (after [0xAA] { fixture with a := 0x00, x := 0x11 }) =
    (0x00, 0x02, 0x0201) := by decide

/-- 41-13. -/
theorem test_tay_41_13 : (fun t : State => (t.y, t.p, t.pc))
    (after [0xA8] { fixture with a := 0x90 }) =
    (0x90, 0x80, 0x0201) := by decide

/-- 41-14. -/
theorem test_txa_41_14 : (fun t : State => (t.a, t.p, t.pc))
    (after [0x8A] { fixture with x := 0x01, a := 0xFF, p := 0x80 }) =
    (0x01, 0x00, 0x0201) := by decide

/-- 41-15. -/
theorem test_tya_41_15 : (fun t : State => (t.a, t.p, t.pc))
    (after [0x98] { fixture with y := 0x80 }) =
    (0x80, 0x80, 0x0201) := by decide

/-- 41-16. -/
theorem test_tsx_41_16 : (fun t : State => (t.x, t.p, t.pc))
    (after [0xBA] { fixture with sp := 0xFD }) =
    (0xFD, 0x80, 0x0201) := by decide

/-- 41-17. -/
theorem test_txs_41_17 : (fun t : State => (t.sp, t.pc, t.p))
    (after [0x9A] { fixture with x := 0x00, p := 0x80 }) =
    (0x00, 0x0201, 0x80) := by decide

/-- 42-1. -/
theorem test_pha_42_1 : (fun t : State => (t.sp, t.pc, t.rawRead 0x01FF, t.p))
    (after [0x48] { fixture with a := 0x42 }) =
    (0xFE, 0x0201, 0x42, 0x00) := by decide

/-- 42-2. -/
theorem test_pha_42_2 : (fun t : State => (t.sp, t.pc, t.rawRead 0x0100, t.p))
    (after [0x48] { fixture with a := 0x42, sp := 0x00 }) =
    (0xFF, 0x0201, 0x42, 0x00) := by decide

/-- 42-4. -/
theorem test_php_42_4 : (fun t : State => (t.sp, t.pc, t.rawRead 0x01FF, t.p))
    (after [0x08] { fixture with p := 0xC3 }) =
    (0xFE, 0x0201, 0xF3, 0xC3) := by decide

/-- 42-5. -/
theorem test_pla_42_5 : (fun t : State => (t.a, t.sp, t.p, t.pc))
    (after [0x68] { fixture with sp := 0xFE, a := 0x33 }) =
    (0x00, 0xFF, 0x02, 0x0201) := by decide

/-- 42-6. -/
theorem test_pla_42_6 : (fun t : State => (t.a, t.sp, t.p, t.pc))
    (after [0x68] (cells [(0x0100, 0x80)] fixture)) =
    (0x80, 0x00, 0x80, 0x0201) := by decide

/-- 42-7. -/
theorem test_plp_42_7 : (fun t : State => (t.sp, t.p, t.pc))
    (after [0x28] (cells [(0x01FF, 0xFF)] { fixture with sp := 0xFE })) =
    (0xFF, 0xFF, 0x0201) := by decide

/-- 42-9. -/
theorem test_plp_42_9 : (fun t : State => (t.sp, t.pc, t.rawRead 0x01FD, t.rawRead 0x01FE, t.rawRead 0x01FF))
    (after [0x28] (cells [(0x01FF, 0x00), (0xFFFE, 0x00), (0xFFFF, 0x03)]
      { fixture with sp := 0xFE, p := 0x04, pending := 0x40, notified := 0x40, enable := 0x40 })) =
    (0xFC, 0x0300, 0x20, 0x01, 0x02) := by decide

/-- 43-4. -/
theorem test_adc_43_4 : (fun t : State => (t.a, t.p, t.pc))
    (after [0x69, 0x00] { fixture with a := 0x7F, p := 0x01 }) =
    (0x80, 0xC0, 0x0202) := by decide

/-- 43-16. -/
theorem test_adc_43_16 : (fun t : State => (t.pc, t.status, t.p))
    (after [0x69, 0x01] { fixture with a := 0x09, p := 0x08 }) =
    (0x0200, .refused (.decimalArithmetic 0x0200 0x69), 0x08) := by decide

/-- 43-18. -/
theorem test_sbc_43_18 : (fun t : State => (t.pc, t.status, t.p))
    (after [0xE9, 0x01] { fixture with a := 0x10, p := 0x09 }) =
    (0x0200, .refused (.decimalArithmetic 0x0200 0xE9), 0x09) := by decide

/-- 43-11. -/
theorem test_sbc_43_11 : (fun t : State => (t.a, t.p, t.pc))
    (after [0xE9, 0x01] { fixture with a := 0x80, p := 0x01 }) =
    (0x7F, 0x41, 0x0202) := by decide

/-- 43-19. -/
theorem test_adc_43_19 : (fun t : State => (t.a, t.pc, t.p))
    (after [0x75, 0x10] (cells [(0x0015, 0x02)] { fixture with a := 0x01, x := 0x05 })) =
    (0x03, 0x0202, 0x00) := by decide

/-- 43-20. -/
theorem test_sbc_43_20 : (fun t : State => (t.a, t.pc, t.p))
    (after [0xF1, 0x20] (cells [(0x0020, 0x00), (0x0021, 0x40), (0x4001, 0x01)]
      { fixture with a := 0x10, y := 0x01, p := 0x01 })) =
    (0x0F, 0x0202, 0x01) := by decide

/-- 43-23. -/
theorem test_cmp_43_23 : (fun t : State => (t.p, t.pc))
    (after [0xC9, 0x01] { fixture with a := 0x80 }) =
    (0x01, 0x0202) := by decide

/-- 43-24. -/
theorem test_cmp_43_24 : (fun t : State => (t.pc, t.p))
    (after [0xC9, 0xFF] { fixture with a := 0x00, p := 0x40 }) =
    (0x0202, 0x40) := by decide

/-- 43-25. -/
theorem test_cpx_43_25 : (fun t : State => (t.p, t.pc))
    (after [0xE0, 0x00] fixture) =
    (0x03, 0x0202) := by decide

/-- 43-26. -/
theorem test_cpx_43_26 : (fun t : State => (t.p, t.pc))
    (after [0xEC, 0x34, 0x12] (cells [(0x1234, 0x7F)] { fixture with x := 0xFF })) =
    (0x81, 0x0203) := by decide

/-- 43-27. -/
theorem test_cpy_43_27 : (fun t : State => (t.p, t.pc))
    (after [0xC4, 0x10] (cells [(0x0010, 0x06)] { fixture with y := 0x05 })) =
    (0x80, 0x0202) := by decide

/-- 43-28. -/
theorem test_inc_43_28 : (fun t : State => (t.p, t.pc, t.rawRead 0x0010))
    (after [0xE6, 0x10] (cells [(0x0010, 0xFF)] fixture)) =
    (0x02, 0x0202, 0x00) := by decide

/-- 43-31. -/
theorem test_dec_43_31 : (fun t : State => (t.p, t.pc, t.rawRead 0x1234))
    (after [0xDE, 0x30, 0x12] (cells [(0x1234, 0x00)] { fixture with x := 0x04 })) =
    (0x80, 0x0203, 0xFF) := by decide

/-- 43-32. -/
theorem test_dec_43_32 : (fun t : State => (t.p, t.pc, t.rawRead 0x0010))
    (after [0xC6, 0x10] (cells [(0x0010, 0x01)] fixture)) =
    (0x02, 0x0202, 0x00) := by decide

/-- 43-33. -/
theorem test_inx_43_33 : (fun t : State => (t.x, t.p, t.pc))
    (after [0xE8] { fixture with x := 0xFF }) =
    (0x00, 0x02, 0x0201) := by decide

/-- 43-34. -/
theorem test_iny_43_34 : (fun t : State => (t.y, t.p, t.pc))
    (after [0xC8] { fixture with y := 0x7F }) =
    (0x80, 0x80, 0x0201) := by decide

/-- 43-35. -/
theorem test_dex_43_35 : (fun t : State => (t.x, t.p, t.pc))
    (after [0xCA] fixture) =
    (0xFF, 0x80, 0x0201) := by decide

/-- 43-36. -/
theorem test_dey_43_36 : (fun t : State => (t.y, t.p, t.pc))
    (after [0x88] { fixture with y := 0x01 }) =
    (0x00, 0x02, 0x0201) := by decide

/-- 44-1. -/
theorem test_and_44_1 : (fun t : State => (t.a, t.pc, t.p))
    (after [0x29, 0x3C] { fixture with a := 0xF0 }) =
    (0x30, 0x0202, 0x00) := by decide

/-- 44-3. -/
theorem test_and_44_3 : (fun t : State => (t.a, t.p, t.pc))
    (after [0x25, 0x10] (cells [(0x0010, 0x80)] { fixture with a := 0xFF, p := 0x41 })) =
    (0x80, 0xC1, 0x0202) := by decide

/-- 44-4. -/
theorem test_ora_44_4 : (fun t : State => (t.a, t.p, t.pc))
    (after [0x09, 0x80] { fixture with a := 0x01 }) =
    (0x81, 0x80, 0x0202) := by decide

/-- 44-7. -/
theorem test_eor_44_7 : (fun t : State => (t.a, t.p, t.pc))
    (after [0x49, 0xFF] { fixture with a := 0x0F }) =
    (0xF0, 0x80, 0x0202) := by decide

/-- 44-8. -/
theorem test_bit_44_8 : (fun t : State => (t.p, t.pc))
    (after [0x24, 0x70] (cells [(0x0070, 0xC0)] { fixture with a := 0x01 })) =
    (0xC2, 0x0202) := by decide

/-- 44-10. -/
theorem test_bit_44_10 : (fun t : State => (t.p, t.pc))
    (after [0x2C, 0x4D, 0xFE]
      { fixture with a := 0x40, p := 0x04, pending := 0x40, notified := 0x40, enable := 0x40 }) =
    (0xC4, 0x0203) := by decide

/-- 44-11. -/
theorem test_asl_44_11 : (fun t : State => (t.a, t.p, t.pc))
    (after [0x0A] { fixture with a := 0x81 }) =
    (0x02, 0x01, 0x0201) := by decide

/-- 44-12. -/
theorem test_asl_44_12 : (fun t : State => (t.p, t.pc, t.rawRead 0x0010))
    (after [0x06, 0x10] (cells [(0x0010, 0x80)] fixture)) =
    (0x03, 0x0202, 0x00) := by decide

/-- 44-14. -/
theorem test_lsr_44_14 : (fun t : State => (t.p, t.pc, t.rawRead 0x0070))
    (after [0x46, 0x70] (cells [(0x0070, 0x03)] fixture)) =
    (0x01, 0x0202, 0x01) := by decide

/-- 44-15. -/
theorem test_lsr_44_15 : (fun t : State => (t.a, t.p, t.pc))
    (after [0x4A] { fixture with a := 0x01, p := 0x80 }) =
    (0x00, 0x03, 0x0201) := by decide

/-- 44-16. -/
theorem test_rol_44_16 : (fun t : State => (t.a, t.p, t.pc))
    (after [0x2A] { fixture with a := 0x40, p := 0x01 }) =
    (0x81, 0x80, 0x0201) := by decide

/-- 44-17. -/
theorem test_rol_44_17 : (fun t : State => (t.p, t.pc, t.rawRead 0x0010))
    (after [0x26, 0x10] (cells [(0x0010, 0x80)] fixture)) =
    (0x03, 0x0202, 0x00) := by decide

/-- 44-18. -/
theorem test_ror_44_18 : (fun t : State => (t.a, t.p, t.pc))
    (after [0x6A] { fixture with a := 0x01, p := 0x01 }) =
    (0x80, 0x81, 0x0201) := by decide

/-- 44-19. -/
theorem test_ror_44_19 : (fun t : State => (t.p, t.pc, t.rawRead 0x1234))
    (after [0x7E, 0x30, 0x12] (cells [(0x1234, 0x00)] { fixture with x := 0x04, p := 0x01 })) =
    (0x80, 0x0203, 0x80) := by decide

/-- 45-1. -/
theorem test_jmp_45_1 : (fun t : State => (t.pc, t.p))
    (after [0x4C, 0x00, 0xC0] fixture) =
    (0xC000, 0x00) := by decide

/-- 45-3. -/
theorem test_jsr_45_3 : (fun t : State => (t.sp, t.pc, t.rawRead 0x01FE, t.rawRead 0x01FF))
    (after [0x20, 0x00, 0x20] { fixture with pc := 0x1000 }) =
    (0xFD, 0x2000, 0x02, 0x10) := by decide

/-- 45-4. -/
theorem test_jsr_45_4 : (fun t : State => (t.sp, t.pc, t.rawRead 0x0100, t.rawRead 0x01FF))
    (after [0x20, 0x00, 0x20] { fixture with pc := 0x1000, sp := 0x00 }) =
    (0xFE, 0x2000, 0x10, 0x02) := by decide

/-- 45-6. -/
theorem test_rts_45_6 : (fun t : State => (t.sp, t.pc, t.p))
    (after [0x60] (cells [(0x01FE, 0x02), (0x01FF, 0x10)] { fixture with sp := 0xFD })) =
    (0xFF, 0x1003, 0x00) := by decide

/-- 45-8. -/
theorem test_rts_45_8 : (fun t : State => (t.sp, t.pc, t.p))
    (after [0x60] (cells [(0x01FF, 0x33), (0x0100, 0x44)] { fixture with sp := 0xFE })) =
    (0x00, 0x4434, 0x00) := by decide

/-- 45-10. -/
theorem test_bcc_45_10 : (fun t : State => (t.pc, t.p))
    (after [0x90, 0x10] { fixture with p := 0x01 }) =
    (0x0202, 0x01) := by decide

/-- 45-13. -/
theorem test_beq_45_13 : (fun t : State => (t.pc, t.p))
    (after [0xF0, 0x10] { fixture with p := 0x02 }) =
    (0x0212, 0x02) := by decide

/-- 45-14. -/
theorem test_beq_45_14 : (fun t : State => (t.pc, t.p))
    (after [0xF0, 0x10] { fixture with p := 0x00 }) =
    (0x0202, 0x00) := by decide

/-- 45-21. -/
theorem test_bvc_45_21 : (fun t : State => (t.pc, t.p))
    (after [0x50, 0x10] { fixture with p := 0x00 }) =
    (0x0212, 0x00) := by decide

/-- 45-23. -/
theorem test_bvs_45_23 : (fun t : State => (t.pc, t.p))
    (after [0x70, 0x10] { fixture with p := 0x40 }) =
    (0x0212, 0x40) := by decide

/-- 45-25. -/
theorem test_bne_45_25 : (fun t : State => (t.pc, t.p))
    (after [0xD0, 0xF9] { fixture with pc := 0x0F05 }) =
    (0x0F00, 0x00) := by decide

/-- 45-26. -/
theorem test_bcc_45_26 : (fun t : State => (t.pc, t.p))
    (after [0x90, 0x80] fixture) =
    (0x0182, 0x00) := by decide

/-- 45-27. -/
theorem test_bcs_45_27 : (fun t : State => (t.pc, t.p))
    (after [0xB0, 0x7F] { fixture with p := 0x01 }) =
    (0x0281, 0x01) := by decide

/-- 45-28. -/
theorem test_bmi_45_28 : (fun t : State => (t.pc, t.p))
    (after [0x30, 0x7F] { fixture with pc := 0xFFF0, p := 0x80 }) =
    (0x0071, 0x80) := by decide

/-- 45-29. -/
theorem test_bpl_45_29 : (fun t : State => (t.pc, t.p))
    (after [0x10, 0xFE] { fixture with pc := 0x0400 }) =
    (0x0400, 0x00) := by decide

/-- 46-1. -/
theorem test_clc_46_1 : (fun t : State => (t.p, t.pc))
    (after [0x18] { fixture with p := 0x01 }) =
    (0x00, 0x0201) := by decide

/-- 46-2. -/
theorem test_sec_46_2 : (fun t : State => (t.p, t.pc))
    (after [0x38] fixture) =
    (0x01, 0x0201) := by decide

/-- 46-3. -/
theorem test_cli_46_3 : (fun t : State => (t.p, t.pc))
    (after [0x58] { fixture with p := 0x04 }) =
    (0x00, 0x0201) := by decide

/-- 46-4. -/
theorem test_sei_46_4 : (fun t : State => (t.p, t.pc))
    (after [0x78] fixture) =
    (0x04, 0x0201) := by decide

/-- 46-5. -/
theorem test_cld_46_5 : (fun t : State => (t.p, t.pc))
    (after [0xD8] { fixture with p := 0x08 }) =
    (0x00, 0x0201) := by decide

/-- 46-6. -/
theorem test_sed_46_6 : (fun t : State => (t.p, t.pc))
    (after [0xF8] fixture) =
    (0x08, 0x0201) := by decide

/-- 46-7. -/
theorem test_clv_46_7 : (fun t : State => (t.p, t.pc))
    (after [0xB8] { fixture with p := 0x40 }) =
    (0x00, 0x0201) := by decide

/-- 46-9. -/
theorem test_brk_46_9 : (fun t : State => (t.sp, t.p, t.pc, t.rawRead 0x01FD, t.rawRead 0x01FE, t.rawRead 0x01FF))
    (after [0x00, 0x00] (cells [(0xFFFE, 0x1C), (0xFFFF, 0xDC)] { fixture with pc := 0x0300 })) =
    (0xFC, 0x04, 0xDC1C, 0x30, 0x02, 0x03) := by decide

/-- 46-10. -/
theorem test_brk_46_10 : (fun t : State => (t.sp, t.pc, t.rawRead 0x0100, t.rawRead 0x0101, t.rawRead 0x01FF))
    (after [0x00, 0x00] (cells [(0xFFFE, 0x00), (0xFFFF, 0xE0)]
      { fixture with pc := 0x0300, sp := 0x01, p := 0x0C })) =
    (0xFE, 0xE000, 0x02, 0x03, 0x3C) := by decide

/-- 46-11. -/
theorem test_rti_46_11 : (fun t : State => (t.sp, t.p, t.pc))
    (after [0x40] (cells [(0x01FD, 0x30), (0x01FE, 0x02), (0x01FF, 0x03)] { fixture with sp := 0xFC, p := 0x04 })) =
    (0xFF, 0x30, 0x0302) := by decide

/-- 46-12. -/
theorem test_rti_46_12 : (fun t : State => (t.p, t.pc))
    (after [0x40] (cells [(0x01FD, 0x20), (0x01FE, 0x00), (0x01FF, 0x05), (0xFFFE, 0x00), (0xFFFF, 0x03)]
      { fixture with sp := 0xFC, p := 0x04, pending := 0x40, notified := 0x40, enable := 0x40 })) =
    (0x24, 0x0300) := by decide

/-- 60-4. -/
theorem test_nop_60_4 : (fun t : State => (t.sp, t.p, t.pc, t.rawRead 0x01FD, t.rawRead 0x01FE, t.rawRead 0x01FF))
    (after [0xEA] (cells [(0xFFFE, 0x00), (0xFFFF, 0x03)]
      { fixture with pc := 0x0400, p := 0x01, pending := 0x40, notified := 0x40, enable := 0x40 })) =
    (0xFC, 0x05, 0x0300, 0x21, 0x01, 0x04) := by decide

/-- 60-6. -/
theorem test_cli_60_6 : (fun t : State => (t.sp, t.pc, t.rawRead 0x01FD, t.rawRead 0x01FE, t.rawRead 0x01FF))
    (after [0x58] (cells [(0xFFFE, 0x00), (0xFFFF, 0x03)]
      { fixture with p := 0x04, pending := 0x40, notified := 0x40, enable := 0x40 })) =
    (0xFC, 0x0300, 0x20, 0x01, 0x02) := by decide

/-- 60-32. -/
theorem test_asl_60_32 : (fun t : State => (t.p, t.pc, t.rawRead 0xFE4D))
    (after [0x0E, 0x4D, 0xFE] { fixture with p := 0x04, pending := 0x42, notified := 0x42, enable := 0x42 }) =
    (0x85, 0x0203, 0x84) := by decide

/-- 60-33. -/
theorem test_lsr_60_33 : (fun t : State => (t.pending, t.notified, t.pc, t.rawRead 0xFE4D))
    (after [0x4E, 0x4D, 0xFE] { fixture with p := 0x04, pending := 0x40, notified := 0x40, enable := 0x40 }) =
    (0x00, 0x00, 0x0203, 0x60) := by decide

/-- 60-1. -/
theorem test_opcode_60_1 : (fun t : State => (t.pc, t.status, t.p))
    (after [0x02] { fixture with a := 0x12 }) =
    (0x0200, .faulted (.decodeFault 0x0200 0x02), 0x00) := by decide

/-! ### The VIA, the agents, the interceptor seam (95_test_vectors.md sections 2.8 and 3) -/

/-- A state with the timer and vertical sync pending, notified and enabled. -/
def ringing : State := { fixture with pending := 0x42, notified := 0x42, enable := 0x42 }

/-- The keyboard half-way through a scan: autoscan off, key 0x35 down. -/
def scanning : State := { fixture with autoscan := false, lastKey := some 0x35, lastProbe := 0x25 }

/-- 60-9. -/
theorem test_via_acknowledge : (fun t : State => (t.pending, t.notified)) (ringing.memWrite 0xFE4D 0x40) = (0x02,
      0x02) := by
  decide
/-- 60-10. -/
theorem test_via_acknowledge_bit7 : (ringing.memWrite 0xFE4D 0xC0).pending = 0x42 := by decide
/-- 60-12. -/
theorem test_via_enable : (fixture.memWrite 0xFE4E 0xC2).enable = 0x42 := by decide
/-- 60-13. -/
theorem test_via_disable : (fun t : State => (t.enable, t.pending)) (ringing.memWrite 0xFE4E 0x02) = (0x40,
      0x42) := by decide
/-- 60-15. -/
theorem test_via_ier_read : (ringing.memRead 0xFE4E).1 = 0xC2 := by decide
/-- 60-18. -/
theorem test_via_ifr_read_disabled : ({ ringing with enable := 0x00 }.memRead 0xFE4D).1 = 0x42 := by decide
/-- 60-19. -/
theorem test_via_ifr_fallback : ({ scanning with enable := 0x01 }.memRead 0xFE4D).1 = 0x81 := by decide
/-- 60-21. -/
theorem test_via_ifr_no_fallback : ({ scanning with autoscan := true }.memRead 0xFE4D).1 = 0x00 := by decide
/-- 60-22, 60-23. -/
theorem test_via_autoscan : ((fixture.memWrite 0xFE40 0x03).autoscan,
      (scanning.memWrite 0xFE40 0xFB).autoscan) = (false, true) := by
  decide
/-- 60-25, 60-26. -/
theorem test_via_ddra_probe : ((fixture.memWrite 0xFE43 0x7F).ddra,
      (fixture.memWrite 0xFE4F 0x25).lastProbe) = (0x7F, 0x25) := by
  decide
/-- 60-27. -/
theorem test_via_probe_match : (scanning.memRead 0xFE4F).1 = 0xA5 := by decide
/-- 60-29. -/
theorem test_via_probe_no_key : ({ scanning with lastKey := none, lastProbe := 0xA5 }.memRead 0xFE4F).1 = 0x25 := by decide
/-- 60-34: a firing inside the step is taken at the step's own poll. -/
theorem test_fire_inside_step : (fun t : State => (t.pc, t.sp, t.notified)) (after [0xEA]
    (cells [(0xFFFF, 0x03)] { fixture with enable := 0x40, schedule := .slot [] (.slot [.fire .timer] .quiet) })) = (0x0300, 0xFC,
      0x40) := by
  decide
/-- 60-35: a disabled source's firing is lost. -/
theorem test_fire_disabled : (fun t : State => (t.pc, t.notified)) (after [0xEA]
    { fixture with schedule := .slot [] (.slot [.fire .timer] .quiet) }) = (0x0201, 0x00) := by decide
/-- 60-36. -/
theorem test_fire_twice : (({ fixture with enable := 0x02 }.fire .vsync).fire .vsync).pending = 0x02 := by decide
/-- 60-37. -/
theorem test_key_down : (fun t : State => (t.lastKey, t.pending)) (fixture.agentStep (.keyDown 0x35)) = (some 0x35,
      0) := by
  decide

/-- P4's machine at its JSR, with a handler at 0xFFEE that handles the call or declines it. -/
def hooked (handled : Bool) : State :=
  { fixture with
    cfg := { Config.default with interceptors := [0xFFEE] }, pc := 0x0202, a := 0x41
    handlerScript := [⟨0x41, 0, 0, 0xFF, 0, [], handled⟩] }

/-- P4 (a). -/
theorem test_jsr_handled : (fun t : State => (t.pc, t.sp, t.mem)) (after [0x20, 0xEE, 0xFF] (hooked true)) =
    (0x0205, 0xFF, (loaded [0x20, 0xEE, 0xFF] (hooked true)).mem) := by decide
/-- P4 (b). -/
theorem test_jsr_declined : (fun t : State => (t.pc, t.sp, t.rawRead 0x01FF, t.rawRead 0x01FE))
    (after [0x20, 0xEE, 0xFF] (hooked false)) = (0xFFEE, 0xFD, 0x02, 0x04) := by decide
/-- R487: a relocatable image and a two-record segmented image. -/
theorem test_load_images :
    (loadRelocatable [0x00, 0x19, 0xA9, 0x05] []).map (fun i => (i.entry, Memory.read i.memory 0x1901)) =
      some (some 0x1900, 0x05) ∧
    (loadSegmented [0x00, 0x20, 0x02, 0x00, 0x11, 0x22, 0x00, 0x30, 0x01, 0x00, 0x33] []).map
      (fun i => (i.entry, Memory.read i.memory 0x2001, Memory.read i.memory 0x3000)) = some (some 0x2000, 0x22,
      0x33) := by
  decide
/-- R487, D48: a record cut short refuses the launch. -/
theorem test_load_truncated : loadSegmented [0x00, 0x20, 0x02, 0x00, 0x11] [] = none := by decide

/-! ### Other launch parameters, launch, and the schedule -/

/-- A machine whose VIA stands elsewhere, with other bits and codes (R8, D15). -/
def moved : State :=
  { fixture with
    cfg := { LaunchParams.default with
      viaOrb := 0x8000#16, viaDdra := 0x8001#16, viaIfr := 0x8002#16, viaIer := 0x8003#16, viaKbd := 0x8004#16
      srcTimer := 5, srcVsync := 2, srcKbd := 3, autoscanOffCode := 0x7#4, autoscanOnCode := 0xF#4
      keyPressedBit := 6 : LaunchParams }.installVia
    pending := 0x20, notified := 0x20, enable := 0x24, lastKey := some 0x35, lastProbe := 0x05 }

/-- R433, R435, R444: the moved IFR is at 0x8002, and 0xFE4D is a plain cell. -/
theorem test_moved_ifr : (fun t : State => (t.pending, (moved.memRead 0x8002).1, (moved.memRead 0xFE4D).1))
    (moved.memWrite 0x8002 0x20) = (0x00, 0xA0, 0x00) := by decide
/-- R452, R440, R443: the moved vsync bit, off code and key-pressed bit. -/
theorem test_moved_bits : ((moved.fire .vsync).notified, (moved.memWrite 0x8000 0x07).autoscan,
      ({ moved with autoscan := false }.memRead 0x8004).1) = (0x24, false, 0x45) := by decide
/-- R480 step 3, R483: a launch and a snapshot launch install the VIA's hooks, so an IER write acts. -/
theorem test_launch_installs_via : (launch LaunchParams.default [] none .quiet).viaHooked ∧
    ((launch LaunchParams.default [] none .quiet).memWrite 0xFE4E 0xC2).enable = 0x42 := by decide
/-- R453, R400: a firing before a faulting opcode's access is in the state recorded with the fault. -/
theorem test_fire_before_fault : (fun t : State => (t.notified, t.pc, t.status))
    (after [0x02] { fixture with enable := 0x40, schedule := .slot [.fire .timer] .quiet }) =
    (0x40, 0x0200, .faulted (.decodeFault 0x0200 0x02)) := by decide
/-- R453, R403: and one between the opcode's access and the operand's, where the step is then refused. -/
theorem test_fire_before_refusal : (fun t : State => (t.notified, t.pc, t.a, t.status))
    (after [0x69, 0x01] { fixture with p := 0x08, enable := 0x40, schedule := .slot [] (.slot [.fire .timer] .quiet) }) =
    (0x40, 0x0200, 0x00, .refused (.decimalArithmetic 0x0200 0x69)) := by decide
/-- R451: a free schedule stays free behind every point. -/
theorem test_free_schedule : { fixture with schedule := .free 0 }.interleave =
    (Config.freeAgents 0).foldl State.agentStep { fixture with schedule := .free 1 } := rfl

/-! ### Witnesses: states and operands that meet each obligation's hypotheses -/

/-- CLC at 0xFE50, next to the hooked window. -/
def beside : State := loaded [0x18] { fixture with pc := 0xFE50 }

theorem witness_EncodeInvertsDecode : decode [0x8D, 0x4D, 0xFE, 0x99] = .ok (.staAbs 0xFE4D, [0x99]) := rfl
theorem witness_OneOpcodeBytePerPair : decodeOpcode 0x91 = some (.sta, .indirectIndexedY) ∧
    Mode.indirectIndexedY ∈ Mnemonic.modes .sta ∧ decodeOpcode 0xFF = none ∧ decodeOpcode 0x00 = some (.brk,
      .implied) := by
  decide
theorem witness_HookedWriteStoresItsCellOnly : fixture.mem.wf = true ∧ 0xFE4C#16 ∉ fixture.cfg.readRegisters := by decide
theorem witness_ReadsAreIdempotent : scanning.cfg.kbdFallback = .column := by decide
theorem witness_PullUndoesPush : { fixture with sp := 0x00 }.mem.wf = true := by decide
/-- For IfrReadComposesPendingBits, IfrWriteAcknowledges, IerSelectsSources and OrbDdraKbdWrites: under R8's defaults and
under other parameters. -/
theorem witness_viaHooked : scanning.viaHooked ∧ scanning.viaApart ∧ moved.viaHooked ∧ moved.viaApart := by decide
theorem witness_KbdReadProbesColumn_off : scanning.viaHooked ∧ scanning.viaApart ∧ scanning.autoscan = false := by decide
theorem witness_KbdReadProbesColumn_on : fixture.viaHooked ∧ fixture.viaApart ∧ fixture.autoscan = true := by decide
/-- Both plain pointer cells, at the wrap of page 0. -/
theorem witness_PointerEffectiveAddresses : BitVec.ofNat 16 (0xFF % 256) ∉ fixture.cfg.readRegisters ∧
    BitVec.ofNat 16 ((0xFF + 1) % 256) ∉ fixture.cfg.readRegisters := by decide
theorem witness_OtherAddressesArePlainCells_read : 0xFE43#16 ∉ fixture.cfg.readRegisters := by decide
theorem witness_OtherAddressesArePlainCells_write : 0xFE41#16 ∉ fixture.cfg.viaRegisters := by decide
theorem witness_OtherAddressesArePlainCells_defaults : fixture.cfg.viaRegisters = Config.default.viaRegisters ∧
    0xFE44 ≤ (0xFE4C#16).toNat ∧ (0xFE4C#16).toNat ≤ 0xFE4C ∧ fixture.viaApart := by decide
theorem witness_OperandByteIsReadOnce :
    (Operand.absolute 0xFE4C).mode ∈ [Mode.zeroPage, .zeroPageX, .zeroPageY, .absolute, .absoluteX, .absoluteY,
      .indexedIndirectX, .indirectIndexedY] ∧
    effectiveAddress 0xAD (.absolute 0xFE4C) fixture = .ok (0xFE4C, fixture) ∧ 0xFE4C#16 ∉ fixture.cfg.readRegisters :=
  ⟨by decide, rfl, by decide⟩
/-- For StoresWriteOneCell, StackInstructionsMoveOneByte, IncDecModifyMemory, ShiftsAndRotates and BrkEntersTheHandler. -/
theorem witness_canonical_memory : (loaded [0x91, 0x20] (cells [(0x01FF, 0x02), (0xFFFF,
      0x03)] fixture)).mem.wf = true := by
  decide
/-- A store at a VIA register and one beside it: both clauses of Writes. -/
theorem witness_Writes : fixture.viaHooked ∧ effectiveAddress 0x8D (.absolute 0xFE4D) fixture = .ok (0xFE4D,
      fixture) ∧
    0xFE4C#16 ∉ fixture.cfg.viaRegisters := ⟨by decide, rfl, by decide⟩
/-- For AdcAddsWithCarry and SbcSubtractsWithBorrow: the refusing case. -/
theorem witness_decimal_refused : { fixture with p := 0x08 }.flag .d = true ∧
    { fixture with p := 0x08 }.cfg.decimalMode = .refuse := by decide
/-- The completing cases: D clear, and D set under Binary. -/
theorem witness_binary_addition : fixture.flag .d = false ∧
    { fixture with cfg := { Config.default with decimalMode := .binary } }.cfg.decimalMode = .binary := by decide
/-- 43-17: and the binary sum there. -/
theorem test_adc_43_17 : (after [0x69, 0x01]
    { fixture with a := 0x09, p := 0x08, cfg :=
      { Config.default with decimalMode := .binary } }).a = 0x0A := by decide
theorem witness_OnlyDecimalArithmeticIsRefused :
    exec (.adcImm 0x01) { fixture with p := 0x08 } = .refused (.decimalArithmetic 0x0200 0x69) := rfl
/-- For JumpsGoToTheirTarget: a pointer at the end of its page, under both settings of the launch parameter. -/
theorem witness_JumpsGoToTheirTarget : ∀ b : Bool, ∀ a ∈ [0x02FF#16, indirectHighAddress b 0x02FF#16],
    a ∉ fixture.cfg.readRegisters := by
  intro b; cases b <;> simp [indirectHighAddress, Config.readRegisters, fixture, State.reset, Config.default,
    LaunchParams.installVia, LaunchParams.default]
theorem witness_JsrPushesReturnAddress : { fixture with sp := 0x00 }.mem.wf = true ∧
    (0x2000 : Word) ∉ fixture.cfg.interceptors := by decide
theorem witness_InterceptedCallRunsHandler_handled : (0xFFEE : Word) ∈ (hooked true).cfg.interceptors ∧
    ((hooked true).points 1).nextHandler.1.handled = true ∧
    (hooked true).handlerScript = ⟨0x41, 0, 0, 0xFF, 0, [], true⟩ :: [] := by decide
theorem witness_InterceptedCallRunsHandler_declined : (0xFFEE : Word) ∈ (hooked false).cfg.interceptors ∧
    ((hooked false).points 1).nextHandler.1.handled = false ∧ (hooked false).mem.wf = true := by decide
theorem witness_RtsUndoesJsr : fixture.mem.wf = true ∧ (0x2000 : Word) ∉ fixture.cfg.interceptors ∧
    ∃ t u : State, exec (.jsr 0x2000) fixture = .next t ∧ exec .rts t = .next u := ⟨by decide, by decide, _, _, rfl,
      rfl⟩
/-- For BrkEntersTheHandler, PollEntersOnUnmaskedNotification and CliTakesPendingInterruptAtOnce: the plain vector. -/
theorem witness_vector : 0xFFFE#16 ∉ ringing.cfg.readRegisters ∧ 0xFFFF#16 ∉ ringing.cfg.readRegisters := by decide
theorem witness_PollEntersOnUnmaskedNotification_masked : fixture.notified = 0 ∨ fixture.flag .i = true := by decide
theorem witness_PollEntersOnUnmaskedNotification_taken : ringing.mem.wf = true ∧ ringing.notified ≠ 0 ∧
    ringing.flag .i = false := by decide
theorem witness_RtiUndoesInterruptEntry : ringing.mem.wf = true ∧ ringing.notified ≠ 0 ∧ ringing.flag .i = false ∧
    ∃ u : State, exec .rti ringing.poll = .next u := ⟨by decide, by decide, by decide, _, rfl⟩
theorem witness_notIntercepted (i : Instr) : NotIntercepted i fixture := fun _ _ => List.not_mem_nil
/-- STX writes no flag and no register; witnesses OnlyListedInstructionsWriteAFlag and ...ARegister. -/
theorem witness_OnlyListedInstructionsWrite : (∃ t : State, exec (.stxZp 0x10) fixture = .next t) ∧
    (Instr.stxZp 0x10).mnemonic ∉ flagWriters .z ∧ (Instr.stxZp 0x10).mnemonic ∉ registerWriters .a ∧
    (Instr.stxZp 0x10).operand.mode ≠ .accumulator := ⟨⟨_, rfl⟩, by decide, by decide, by decide⟩
theorem witness_PcAdvancesByLength : (∃ t : State, exec (.staAbs 0x1234) { fixture with pc := 0xFFFE } = .next t) ∧
    (Instr.staAbs 0x1234).mnemonic ∉ pcWriters := ⟨⟨_, rfl⟩, by decide⟩
theorem witness_OnlyHookedWritesReachTheVia_plain : (∃ t : State, exec .pla fixture = .next t) ∧
    Instr.pla.mnemonic ∉ cellWriters ∧ Instr.pha.mnemonic ∉ hookedWriters := ⟨⟨_, rfl⟩, by decide, by decide⟩
theorem witness_OnlyHookedWritesReachTheVia_accumulator : (∃ t : State, exec .aslAcc fixture = .next t) ∧
    Instr.aslAcc.operand.mode = .accumulator := ⟨⟨_, rfl⟩, by decide⟩
theorem witness_StepRunsDecodedInstruction : beside.status = .running ∧ beside.interleave.stopRequest = false ∧
    (∀ k : Nat, k < 3 → beside.pc + BitVec.ofNat 16 k ∉ beside.cfg.readRegisters) ∧
    decode [beside.rawRead beside.pc, beside.rawRead (beside.pc + 1), beside.rawRead (beside.pc + 2)] =
      .ok (.clc, [0x00, 0x00]) := ⟨by decide, by decide, by decide, rfl⟩
theorem witness_InvalidOpcodeIsDecodeFault : (loaded [0x02] fixture).status = .running ∧
    (loaded [0x02] fixture).interleave.stopRequest = false ∧
    isValid ((loaded [0x02] fixture).interleave.memRead (loaded [0x02] fixture).pc).1 = false := by decide
theorem witness_RefusedStepWritesNothing : { loaded [0x69, 0x01] { fixture with p := 0x08 } with
      schedule := .slot [] (.slot [.keyUp] .quiet) }.status = .running ∧
    step { loaded [0x69, 0x01] { fixture with p := 0x08 } with schedule := .slot [] (.slot [.keyUp] .quiet) } =
      .refused (.decimalArithmetic 0x0200 0x69) := ⟨rfl, rfl⟩
theorem witness_InterleavingPointsFollowTheSchedule : { fixture with schedule := .free 3 }.schedule = .free 3 ∧
    { fixture with schedule := .slot [.keyUp] .quiet }.schedule = .slot [.keyUp] .quiet ∧
    fixture.schedule = .quiet := ⟨rfl, rfl, rfl⟩
theorem witness_OnlyRunningMachineSteps : { fixture with status := .stopped }.status ≠ .running := by decide
theorem witness_HostStopsAtTheBoundary_told : { fixture with schedule := .slot [.hostStop] .quiet }.status = .running ∧
    { fixture with schedule := .slot [.hostStop] .quiet }.interleave.stopRequest = true := by decide
theorem witness_HostStopsAtTheBoundary_next : ∃ t : State, step fixture = .next t := ⟨_, rfl⟩
theorem witness_CliTakesPendingInterruptAtOnce :
    (fun s : State => s.status = .running ∧ s.stopRequest = false ∧ s.schedule = .quiet ∧ s.mem.wf = true ∧
      s.notified ≠ 0 ∧ s.pc ∉ s.cfg.readRegisters ∧ 0xFFFE#16 ∉ s.cfg.readRegisters ∧
      0xFFFF#16 ∉ s.cfg.readRegisters ∧ s.rawRead s.pc = 0x58#8)
    (loaded [0x58] { ringing with p := 0x04 }) := by decide
theorem witness_ResetLeavesTheSpecsValues :
    0xFFFC#16 ∉ (launch moved.cfg.toLaunchParams [] none (.free 0)).cfg.readRegisters ∧
    0xFFFD#16 ∉ (launch moved.cfg.toLaunchParams [] none (.free 0)).cfg.readRegisters := by decide
theorem witness_ResetHasTheInvariant : Memory.wf [(0xFFFC, 0x34#8), (0xFFFD, 0x12#8)] = true := by decide
theorem witness_StepKeepsInvariant : ringing.Inv ∧ ∃ t : State, step ringing = .next t :=
  ⟨⟨by decide, by decide, by decide⟩, _, rfl⟩
theorem witness_LaunchParametersAreFixed : ∃ t : State, Reachable ringing t ∧ t ≠ ringing :=
  ⟨_, .step .start rfl, fun h => absurd (congrArg State.sp h) (by decide)⟩
/-- The poll clause of CLI. -/
theorem witness_FlagInstructionsSetOneBit : ∃ t : State, exec .cli { ringing with p := 0x04 } = .next t ∧
    t.interleave.notified ≠ 0 := ⟨_, rfl, by decide⟩
theorem witness_ConstructionFaultsOnDuplicateRow : ¬ ((rows0.take 1 ++ rows0.take 1).map Row.opcode).Nodup ∧
    ((rows0.take 2).map Row.opcode).Nodup := by decide
theorem witness_RelocatableImageLoadsAtOrigin : fixture.mem.wf = true ∧ [0xA9#8, 0x05#8].length ≤ 65536 ∧
    (∀ k : Nat, k < 2 → 0x0001 ≠ (0xFFFF + k) % 65536) := by decide
theorem witness_SnapshotRoundTrip : (cells [(0x0000, 0x01), (0xFFFF, 0x80)] fixture).mem.wf = true := by decide

end Sys2Proof.Tests
end

section
/-! PROOFS. What one step can do, and what every step and every launch leaves (10_state.md): the invariant, the launch
parameters, the run status, the values after reset. -/

namespace Sys2Proof.Machine

/-! ### What answers a next state -/

/-- A step that completes ends with an interleaving point and the poll (R410, R453). -/
theorem finishStep_next {o : Outcome State} {t : State} (h : finishStep o = .next t) :
    ∃ v, o = .next v ∧ t = v.interleave.poll := by
  cases o with
  | next v => cases h; exact ⟨v, rfl, rfl⟩
  | fault f => cases h
  | refused r => cases h

/-- A CPU step that completes has fetched an instruction, executed it and polled (R141). -/
theorem cpuStep_next {s t : State} (h : cpuStep s = .next t) :
    ∃ i u v, fetch s = .ok (i, u) ∧ exec i u = .next v ∧ t = v.interleave.poll := by
  unfold cpuStep at h
  split at h
  · next i u hf =>
    obtain ⟨v, hv, ht⟩ := finishStep_next h
    exact ⟨i, u, v, hf, hv, ht⟩
  · cases h

/-- A step with a next state is a running machine's: the host's stop, or a CPU step (R42, R141, R490). -/
theorem step_next {s t : State} (h : step s = .next t) :
    s.status = .running ∧
      ((s.interleave.stopRequest = true ∧ t = { s.interleave with status := .stopped }) ∨
        ∃ i u v, fetch s.interleave = .ok (i, u) ∧ exec i u = .next v ∧ t = v.interleave.poll) := by
  unfold step cycle at h
  split at h
  · next hs =>
    refine ⟨hs, ?_⟩
    unfold boundaryStep at h
    split at h
    · next hr => cases h; exact .inl ⟨hr, rfl⟩
    · exact .inr (cpuStep_next h)
  all_goals cases h

/-! ### What a step keeps -/

theorem State.points_kept (n : Nat) (s : State) : Kept s (s.points n) := by
  induction n generalizing s with
  | zero => exact Kept.refl s
  | succ n ih => exact s.interleave_kept.trans (ih s.interleave)

/-- Bus reads keep what interleaving points keep: beside the agents' steps they only count free values (R74). -/
theorem Accessed.kept {n : Nat} {s t : State} (h : Accessed n s t) : Kept s t := by
  rw [h.eq_points]
  exact (s.points_kept n).trans ⟨rfl, rfl, id⟩

/-- A step with a next state keeps the invariant and the launch parameters: a stop writes the run status alone, and a CPU
step's fetch, instruction and poll keep both. -/
theorem step_keeps {s t : State} (h : step s = .next t) : t.cfg = s.cfg ∧ (s.Inv → t.Inv) := by
  obtain ⟨-, ⟨-, rfl⟩ | ⟨i, u, v, hf, he, rfl⟩⟩ := step_next h
  · obtain ⟨hcfg, -, hinv⟩ := s.interleave_kept
    exact ⟨hcfg, hinv⟩
  · have hexec : Kept u v := exec_keeps i u v he
    obtain ⟨hcfg, -, hinv⟩ :=
      (fetch_accessed hf).kept.trans (hexec.trans (v.interleave_kept.trans v.interleave.poll_kept))
    exact ⟨hcfg, hinv⟩

/-- A machine that is not running has no next state (R42, R404). -/
theorem step_ne_next {s : State} (hs : s.status ≠ .running) (t : State) : step s ≠ .next t :=
  fun h => hs (step_next h).1

/-- A machine that is not running is recorded as it stands (R404). -/
theorem settle_eq_self {s : State} (hs : s.status ≠ .running) : settle s = s := by
  unfold settle
  split
  case h_4 => rfl
  all_goals next h _ => exact absurd h hs

/-- Where no read hook claims its two cells, the reset vector is the word they hold (R480 step 6). -/
theorem State.resetVector_toNat {s : State} (hl : 0xFFFC#16 ∉ s.cfg.readRegisters)
    (hh : 0xFFFD#16 ∉ s.cfg.readRegisters) :
    s.resetVector.toNat = 256 * (Memory.read s.mem 0xFFFD).toNat + (Memory.read s.mem 0xFFFC).toNat := by
  have hlo : s.memRead Config.vecReset = (s.rawRead 0xFFFC#16, s) := State.memRead_unhooked hl
  have hhi : s.memRead (Config.vecReset + 1) = (s.rawRead 0xFFFD#16, s) := State.memRead_unhooked hh
  simp only [State.resetVector, hlo, hhi, word_toNat]
  rfl

end Sys2Proof.Machine

namespace Sys2Proof.Proofs

open Sys2Proof.Machine

/-- Settles O54: a stop changes the run status alone, and the fetch, the instruction and the poll of a CPU step each keep
the invariant. -/
theorem stepKeepsInvariant : Obligations.StepKeepsInvariant :=
  fun _ _ hinv h => (step_keeps h).2 hinv

/-- Settles O55, by induction on the run: no step of it writes a launch parameter. -/
theorem launchParametersAreFixed : Obligations.LaunchParametersAreFixed := by
  intro s t h
  induction h with
  | start => rfl
  | step _ hstep ih => exact (step_keeps hstep).1.trans ih

/-- Settles O50: only the running status leads to a step, and only a running machine's step is recorded. -/
theorem onlyRunningMachineSteps : Obligations.OnlyRunningMachineSteps :=
  fun _ t hs => ⟨step_ne_next hs t, settle_eq_self hs⟩

/-- Settles O56: a launch writes the VIA's hooks, the cells, the schedule and PC over the reset state; PC is the reset
vector's word, read where no hook answers. -/
theorem resetLeavesTheSpecsValues : Obligations.ResetLeavesTheSpecsValues := by
  intro params m e agents
  have masked : Flag.test .i State.reset.p = true := by decide
  exact ⟨⟨rfl, rfl⟩, rfl, State.resetVector_toNat (s := assembled params m agents), masked,
    rfl, rfl, rfl, rfl, rfl, rfl, rfl, rfl, rfl, rfl, rfl⟩

end Sys2Proof.Proofs
end

section
/-! PROOFS. The registers and flags by name (R24, R30): what every operation does to `State.reg` and `State.flag`, and so
which of them an instruction can write. -/

namespace Sys2Proof.Machine

/-! ### Registers and flags after each operation -/

/-- States with the same A, X, Y and S have the same registers. -/
theorem State.reg_congr {s t : State} (ha : t.a = s.a) (hx : t.x = s.x) (hy : t.y = s.y) (hs : t.sp = s.sp) (q : Reg) :
    t.reg q = s.reg q := by
  cases q <;> assumption

/-- States with the same P have the same flags. -/
theorem State.flag_congr {s t : State} (h : t.p = s.p) (f : Flag) : t.flag f = s.flag f := by
  rw [State.flag, State.flag, h]

section operations
variable (q : Reg) (g : Flag) (s : State)

@[simp] theorem State.reg_setReg (r : Reg) (v : Byte) : (s.setReg r v).reg q = if q = r then v else s.reg q := by
  cases r <;> cases q <;> rfl
@[simp] theorem State.reg_setFlag (f : Flag) (v : Bool) : (s.setFlag f v).reg q = s.reg q := by cases q <;> rfl
@[simp] theorem State.reg_setFlags (v : Byte) : (s.setFlags v).reg q = s.reg q := by cases q <;> rfl
@[simp] theorem State.reg_setZN (v : Byte) : (s.setZN v).reg q = s.reg q := by cases q <;> rfl
@[simp] theorem State.reg_setSumFlags (r : Sum) : (s.setSumFlags r).reg q = s.reg q := by cases q <;> rfl
@[simp] theorem State.reg_compare (r m : Byte) : (s.compare r m).reg q = s.reg q := by cases q <;> rfl
@[simp] theorem State.reg_bitTest (m : Byte) : (s.bitTest m).reg q = s.reg q := by cases q <;> rfl
@[simp] theorem State.reg_setShiftFlags (f : Shift) (m r : Byte) : (s.setShiftFlags f m r).reg q = s.reg q := by
  cases q <;> rfl
@[simp] theorem State.reg_advance (n : Nat) : (s.advance n).reg q = s.reg q := by cases q <;> rfl
@[simp] theorem State.reg_jump (w : Word) : (s.jump w).reg q = s.reg q := by cases q <;> rfl
@[simp] theorem State.reg_interleave : s.interleave.reg q = s.reg q :=
  State.reg_congr s.interleave_a s.interleave_x s.interleave_y s.interleave_sp q
@[simp] theorem State.reg_busWrite (a : Word) (v : Byte) : (s.busWrite a v).reg q = s.reg q :=
  State.reg_congr (s.busWrite_a a v) (s.busWrite_x a v) (s.busWrite_y a v) (s.busWrite_sp a v) q

@[simp] theorem State.flag_setReg (r : Reg) (v : Byte) : (s.setReg r v).flag g = s.flag g := by cases r <;> rfl
@[simp] theorem State.flag_advance (n : Nat) : (s.advance n).flag g = s.flag g := rfl
@[simp] theorem State.flag_jump (w : Word) : (s.jump w).flag g = s.flag g := rfl
@[simp] theorem State.flag_interleave : s.interleave.flag g = s.flag g := State.flag_congr s.interleave_p g
@[simp] theorem State.flag_busWrite (a : Word) (v : Byte) : (s.busWrite a v).flag g = s.flag g :=
  State.flag_congr (s.busWrite_p a v) g
@[simp] theorem State.flag_busPush (v : Byte) : (s.busPush v).flag g = s.flag g := State.flag_congr (s.busPush_p v) g
@[simp] theorem State.flag_busPull : s.busPull.2.flag g = s.flag g := State.flag_congr s.busPull_p g
@[simp] theorem State.flag_busPull16 : s.busPull16.2.flag g = s.flag g := State.flag_congr s.busPull16_p g
@[simp] theorem State.flag_enterHandler (ret : Word) (status : Byte) :
    (s.enterHandler ret status).flag g = if g = .i then true else s.flag g := by
  rw [State.flag, State.enterHandler_p, Flag.test_put, State.flag]

variable {q} (hq : q ≠ .s)
include hq

/-! A stack operation writes S alone of the registers (R70, R71, R348, R349). -/

theorem State.reg_busPush (v : Byte) : (s.busPush v).reg q = s.reg q := by
  cases q <;> simp [State.reg] at hq ⊢
theorem State.reg_busPull : s.busPull.2.reg q = s.reg q := by
  cases q <;> simp [State.reg] at hq ⊢
theorem State.reg_busPull16 : s.busPull16.2.reg q = s.reg q := by
  cases q <;> simp [State.reg] at hq ⊢
theorem State.reg_enterHandler (ret : Word) (status : Byte) : (s.enterHandler ret status).reg q = s.reg q := by
  cases q <;> simp [State.reg] at hq ⊢
theorem State.reg_returnFromHandler : s.returnFromHandler.reg q = s.reg q := by
  cases q <;> simp [State.reg] at hq ⊢

end operations

/-! ### What answers an address or a byte has made bus reads only -/

theorem effectiveAddress_accessed {op : Byte} {o : Operand} {s s1 : State} {ea : Word}
    (h : effectiveAddress op o s = .ok (ea, s1)) : Accessed (pointerReads o) s s1 := by
  cases o with
  | implied | accumulator | immediate _ => cases h
  | indirect _ | indexedIndirectX _ | indirectIndexedY _ => cases h; exact s.busReadPair_accessed _ _
  | zeroPage _ | zeroPageX _ | zeroPageY _ | absolute _ | absoluteX _ | absoluteY _ | relative _ =>
    cases h; exact Accessed.refl s

theorem memoryAddress_accessed {op : Byte} {o : Operand} {s s1 : State} {ea : Word}
    (h : memoryAddress op o s = .ok (ea, s1)) : Accessed (pointerReads o) s s1 := by
  unfold memoryAddress at h
  split at h
  · exact effectiveAddress_accessed h
  · cases h

theorem operandByte_accessed {op : Byte} {o : Operand} {s s1 : State} {m : Byte}
    (h : operandByte op o s = .ok (m, s1)) : Accessed (operandReads o) s s1 := by
  unfold operandByte at h
  split at h
  · cases h; exact Accessed.refl s
  · next himm =>
    split at h
    · next ea s2 hea =>
      have hs1 : (s2.busRead ea).2 = s1 := congrArg Prod.snd (Except.ok.inj h)
      have hmode : o.mode ≠ .immediate := by
        intro hm
        cases o <;> simp only [Operand.mode, reduceCtorEq] at hm
        exact himm _ rfl
      rw [operandReads, if_neg hmode, ← hs1]
      exact (memoryAddress_accessed hea).trans (State.busRead_accessed ea s2)
    · cases h

/-! ### Writing only the listed registers and flags -/

/-- From `s` to `t` no register outside `regs` and no flag outside `flags` changes. -/
def TouchesOnly (regs : List Reg) (flags : List Flag) (s t : State) : Prop :=
  (∀ q, q ∉ regs → t.reg q = s.reg q) ∧ ∀ g, g ∉ flags → t.flag g = s.flag g

section touches
variable {regs : List Reg} {flags : List Flag} {s t u : State}

theorem TouchesOnly.trans (h : TouchesOnly regs flags s t) (k : TouchesOnly regs flags t u) :
    TouchesOnly regs flags s u :=
  ⟨fun q hq => (k.1 q hq).trans (h.1 q hq), fun g hg => (k.2 g hg).trans (h.2 g hg)⟩

theorem Accessed.touchesOnly {n : Nat} (h : Accessed n s t) : TouchesOnly regs flags s t :=
  ⟨fun q _ => h.reg_eq q, fun g _ => h.flag_eq g⟩

theorem done_touchesOnly {o : Operand} (hs : TouchesOnly regs flags s u) (h : done o u = .next t) :
    TouchesOnly regs flags s t := by
  cases h
  exact ⟨fun q hq => by simpa using hs.1 q hq, fun g hg => by simpa using hs.2 g hg⟩

theorem reading_touchesOnly {op : Byte} {o : Operand} {f : Byte → State → State}
    (hf : ∀ m u, TouchesOnly regs flags u (f m u)) (h : reading op o f s = .next t) : TouchesOnly regs flags s t := by
  unfold reading at h
  split at h
  · next m s1 hm => exact done_touchesOnly ((operandByte_accessed hm).touchesOnly.trans (hf m s1)) h
  · cases h

theorem storing_touchesOnly {op : Byte} {o : Operand} {value : State → Byte} (h : storing op o value s = .next t) :
    TouchesOnly regs flags s t := by
  unfold storing at h
  split at h
  · next ea s1 hea =>
    exact done_touchesOnly ((memoryAddress_accessed hea).touchesOnly.trans ⟨by simp, by simp⟩) h
  · cases h

theorem modifying_touchesOnly {op : Byte} {o : Operand} {r : Byte → Bool → Byte} {f : Byte → Byte → State → State}
    (hf : ∀ m v u, TouchesOnly regs flags u (f m v u)) (h : modifying op o r f s = .next t) :
    TouchesOnly regs flags s t := by
  unfold modifying at h
  split at h
  · next ea s1 hea =>
    have hread := (memoryAddress_accessed hea).trans (State.busRead_accessed ea s1)
    refine done_touchesOnly (hread.touchesOnly.trans (.trans ?write (hf _ _ _))) h
    case write => exact ⟨by simp, by simp⟩
  · cases h

theorem addition_touchesOnly {law : Byte → Byte → Bool → Sum} {op : Byte} {o : Operand}
    (h : addition law op o s = .next t) : TouchesOnly [.a] [.c, .z, .v, .n] s t := by
  unfold addition at h
  split at h
  · next m s1 hm =>
    split at h
    · cases h
    · refine done_touchesOnly ((operandByte_accessed hm).touchesOnly.trans ⟨?_, ?_⟩) h
      · intro q hq; simp_all
      · intro g hg; simp_all
  · cases h

theorem jumping_touchesOnly {op : Byte} {o : Operand} (h : jumping op o s = .next t) : TouchesOnly regs flags s t := by
  unfold jumping at h
  split at h
  · next ea s1 hea =>
    cases h
    exact (effectiveAddress_accessed hea).touchesOnly.trans ⟨by simp, by simp⟩
  · cases h

theorem branching_touchesOnly {f : Flag} {taken : Bool} {op b : Byte} (h : branching f taken op b s = .next t) :
    TouchesOnly regs flags s t := by
  unfold branching at h
  split at h
  · exact jumping_touchesOnly h
  · exact done_touchesOnly (Accessed.refl s).touchesOnly h

theorem load_touchesOnly {r : Reg} {op : Byte} {o : Operand} (h : load r op o s = .next t) :
    TouchesOnly [r] [.z, .n] s t :=
  reading_touchesOnly (fun _ _ => ⟨by simp_all, by simp_all⟩) h

theorem comparison_touchesOnly {r : Reg} {op : Byte} {o : Operand} (h : comparison r op o s = .next t) :
    TouchesOnly [] [.c, .z, .n] s t :=
  reading_touchesOnly (fun _ _ => ⟨by simp, by simp_all⟩) h

theorem logical_touchesOnly {f : Byte → Byte → Byte} {op : Byte} {o : Operand} (h : logical f op o s = .next t) :
    TouchesOnly [.a] [.z, .n] s t :=
  reading_touchesOnly (fun _ _ => ⟨by simp_all, by simp_all⟩) h

theorem bitTesting_touchesOnly {op : Byte} {o : Operand} (h : bitTesting op o s = .next t) :
    TouchesOnly [] [.z, .v, .n] s t :=
  reading_touchesOnly (fun _ _ => ⟨by simp, by simp_all⟩) h

theorem stepMemory_touchesOnly {f : Byte → Byte} {op : Byte} {o : Operand} (h : stepMemory f op o s = .next t) :
    TouchesOnly [] [.z, .n] s t :=
  modifying_touchesOnly (fun _ _ _ => ⟨by simp, by simp_all⟩) h

theorem shiftMemory_touchesOnly {f : Shift} {op : Byte} {o : Operand} (h : shiftMemory f op o s = .next t) :
    TouchesOnly [] [.c, .z, .n] s t :=
  modifying_touchesOnly (fun _ _ _ => ⟨by simp, by simp_all⟩) h

theorem shiftA_touchesOnly {f : Shift} (h : shiftA f s = .next t) : TouchesOnly [.a] [.c, .z, .n] s t :=
  done_touchesOnly ⟨by simp_all, by simp_all⟩ h

theorem transfer_touchesOnly {src dst : Reg} (h : transfer src dst s = .next t) : TouchesOnly [dst] [.z, .n] s t :=
  done_touchesOnly ⟨by simp_all, by simp_all⟩ h

theorem stepRegister_touchesOnly {f : Byte → Byte} {r : Reg} (h : stepRegister f r s = .next t) :
    TouchesOnly [r] [.z, .n] s t :=
  done_touchesOnly ⟨by simp_all, by simp_all⟩ h

theorem flagging_touchesOnly {f : Flag} {v : Bool} (h : flagging f v s = .next t) : TouchesOnly [] [f] s t :=
  done_touchesOnly ⟨by simp, by simp_all⟩ h

end touches

/-! ### The shapes of instruction -/

/-- The shapes the meanings of Arithmetic.lean to System.lean have: what a mnemonic does, whatever its operand. -/
inductive Shape where
  | load (r : Reg)
  | store (r : Reg)
  | transfer (src dst : Reg)
  | txs
  | addition (law : Byte → Byte → Bool → Sum)
  | comparison (r : Reg)
  | stepMemory (f : Byte → Byte)
  | stepRegister (f : Byte → Byte) (r : Reg)
  | logical (f : Byte → Byte → Byte)
  | bitTesting
  | shift (f : Shift)
  | jump
  | call
  | ret
  | branch (f : Flag) (taken : Bool)
  | flagging (f : Flag) (v : Bool)
  | pha
  | php
  | pla
  | plp
  | nop
  | brk
  | rti

/-- The shape of each mnemonic's rule (R104, R170 to R349). -/
def Shape.ofMnemonic : Mnemonic → Shape
  | .lda => .load .a
  | .ldx => .load .x
  | .ldy => .load .y
  | .sta => .store .a
  | .stx => .store .x
  | .sty => .store .y
  | .tax => .transfer .a .x
  | .tay => .transfer .a .y
  | .txa => .transfer .x .a
  | .tya => .transfer .y .a
  | .tsx => .transfer .s .x
  | .txs => .txs
  | .pha => .pha
  | .php => .php
  | .pla => .pla
  | .plp => .plp
  | .adc => .addition add8
  | .sbc => .addition sub8
  | .cmp => .comparison .a
  | .cpx => .comparison .x
  | .cpy => .comparison .y
  | .inc => .stepMemory (fun m => m + 1)
  | .inx => .stepRegister (fun m => m + 1) .x
  | .iny => .stepRegister (fun m => m + 1) .y
  | .dec => .stepMemory (fun m => m - 1)
  | .dex => .stepRegister (fun m => m - 1) .x
  | .dey => .stepRegister (fun m => m - 1) .y
  | .and => .logical (fun a m => a &&& m)
  | .ora => .logical (fun a m => a ||| m)
  | .eor => .logical (fun a m => a ^^^ m)
  | .bit => .bitTesting
  | .asl => .shift .asl
  | .lsr => .shift .lsr
  | .rol => .shift .rol
  | .ror => .shift .ror
  | .jmp => .jump
  | .jsr => .call
  | .rts => .ret
  | .bcc => .branch .c false
  | .bcs => .branch .c true
  | .beq => .branch .z true
  | .bne => .branch .z false
  | .bmi => .branch .n true
  | .bpl => .branch .n false
  | .bvc => .branch .v false
  | .bvs => .branch .v true
  | .clc => .flagging .c false
  | .sec => .flagging .c true
  | .cli => .flagging .i false
  | .sei => .flagging .i true
  | .cld => .flagging .d false
  | .sed => .flagging .d true
  | .clv => .flagging .v false
  | .nop => .nop
  | .brk => .brk
  | .rti => .rti

/-- What an instruction of a shape does with its opcode byte and operand. A call or a branch with an operand no row gives
it is answered like any other mode without the address asked for (R401). -/
def Shape.run : Shape → Byte → Operand → State → Outcome State
  | .load r, op, o, s => Machine.load r op o s
  | .store r, op, o, s => Machine.store r op o s
  | .transfer src dst, _, _, s => Machine.transfer src dst s
  | .txs, _, _, s => execTxs s
  | .addition law, op, o, s => Machine.addition law op o s
  | .comparison r, op, o, s => Machine.comparison r op o s
  | .stepMemory f, op, o, s => Machine.stepMemory f op o s
  | .stepRegister f r, _, _, s => Machine.stepRegister f r s
  | .logical f, op, o, s => Machine.logical f op o s
  | .bitTesting, op, o, s => Machine.bitTesting op o s
  | .shift f, _, .accumulator, s => shiftA f s
  | .shift f, op, o, s => shiftMemory f op o s
  | .jump, op, o, s => jumping op o s
  | .call, _, .absolute w, s => execJsr w s
  | .call, op, o, s => .fault (.addressingModeFault s.pc op o.mode)
  | .ret, _, _, s => execRts s
  | .branch f taken, op, .relative b, s => branching f taken op b s
  | .branch _ _, op, o, s => .fault (.addressingModeFault s.pc op o.mode)
  | .flagging f v, _, _, s => Machine.flagging f v s
  | .pha, _, _, s => execPha s
  | .php, _, _, s => execPhp s
  | .pla, _, _, s => execPla s
  | .plp, _, _, s => execPlp s
  | .nop, _, _, s => execNop s
  | .brk, _, _, s => execBrk s
  | .rti, _, _, s => execRti s

/-- Dispatch by constructor is the shape of the mnemonic, run on the opcode byte and the operand. -/
theorem exec_eq_run (i : Instr) (s : State) : exec i s = (Shape.ofMnemonic i.mnemonic).run i.opcode i.operand s := by
  cases i <;> rfl

/-- The eight flags of R24. -/
def Flag.all : List Flag := [.c, .z, .i, .d, .b, .r, .v, .n]

theorem Flag.mem_all (f : Flag) : f ∈ Flag.all := by cases f <;> decide

/-- The flags a shape writes (R26). -/
def Shape.flags : Shape → List Flag
  | .load _ | .transfer _ _ | .stepMemory _ | .stepRegister _ _ | .logical _ | .pla => [.z, .n]
  | .addition _ => [.c, .z, .v, .n]
  | .comparison _ | .shift _ => [.c, .z, .n]
  | .bitTesting => [.z, .v, .n]
  | .flagging f _ => [f]
  | .brk => [.i]
  | .plp | .rti => Flag.all
  | .store _ | .txs | .jump | .call | .ret | .branch _ _ | .pha | .php | .nop => []

/-- The registers a shape writes (R30), given whether its operand is the accumulator: a shift writes A in that form only. -/
def Shape.regs : Shape → Bool → List Reg
  | .load r, _ | .transfer _ r, _ | .stepRegister _ r, _ => [r]
  | .addition _, _ | .logical _, _ | .shift _, true => [.a]
  | .pla, _ => [.a, .s]
  | .txs, _ | .call, _ | .ret, _ | .pha, _ | .php, _ | .plp, _ | .brk, _ | .rti, _ => [.s]
  | .store _, _ | .comparison _, _ | .stepMemory _, _ | .bitTesting, _ | .shift _, false | .jump, _ | .branch _ _, _
  | .flagging _ _, _ | .nop, _ => []

/-- A shape writes the registers and flags it lists and no other, an interceptor handler apart. -/
theorem Shape.run_touchesOnly {sh : Shape} {op : Byte} {o : Operand} {s t : State}
    (hcall : sh = .call → ∀ w, o = .absolute w → w ∉ s.cfg.interceptors) (h : sh.run op o s = .next t) :
    TouchesOnly (sh.regs (o.mode = .accumulator)) sh.flags s t := by
  cases sh with
  | load r => exact load_touchesOnly h
  | store r => exact storing_touchesOnly h
  | transfer src dst => exact transfer_touchesOnly h
  | txs => exact done_touchesOnly ⟨by simp_all [Shape.regs], by simp⟩ h
  | addition law => exact addition_touchesOnly h
  | comparison r => exact comparison_touchesOnly h
  | stepMemory f => exact stepMemory_touchesOnly h
  | stepRegister f r => exact stepRegister_touchesOnly h
  | logical f => exact logical_touchesOnly h
  | bitTesting => exact bitTesting_touchesOnly h
  | shift f =>
    cases o with
    | accumulator => exact shiftA_touchesOnly h
    | _ => exact shiftMemory_touchesOnly h
  | jump => exact jumping_touchesOnly h
  | call =>
    cases o with
    | absolute w =>
      have hw : w ∉ s.cfg.interceptors := hcall rfl w rfl
      simp only [Shape.run, execJsr, State.intercept_unregistered hw] at h
      cases h
      exact ⟨by simp_all [Shape.regs, calling, State.reg_busPush], by simp [calling]⟩
    | _ => cases h
  | ret => cases h; exact ⟨by simp_all [Shape.regs, State.reg_busPull16], by simp⟩
  | branch f taken =>
    cases o with
    | relative b => exact branching_touchesOnly h
    | _ => cases h
  | flagging f v => exact flagging_touchesOnly h
  | pha | php => exact done_touchesOnly ⟨by simp_all [Shape.regs, State.reg_busPush], by simp⟩ h
  | pla => exact done_touchesOnly ⟨by simp_all [Shape.regs, State.reg_busPull], by simp_all [Shape.flags]⟩ h
  | plp => exact done_touchesOnly ⟨by simp_all [Shape.regs, State.reg_busPull], fun g hg => absurd g.mem_all hg⟩ h
  | nop => exact done_touchesOnly (Accessed.refl s).touchesOnly h
  | brk => cases h; exact ⟨by simp_all [Shape.regs, State.reg_enterHandler], by simp_all [Shape.flags]⟩
  | rti => cases h; exact ⟨by simp_all [Shape.regs, State.reg_returnFromHandler], fun g hg => absurd g.mem_all hg⟩

end Sys2Proof.Machine

namespace Sys2Proof.Proofs

open Sys2Proof.Machine Sys2Proof.Claims

/-- The flags a mnemonic's shape writes are those R26 lists it for. -/
theorem mem_flagWriters_of_mem_flags (m : Mnemonic) : ∀ f ∈ (Shape.ofMnemonic m).flags, m ∈ flagWriters f := by
  cases m <;> decide

/-- The registers a mnemonic's shape writes are those R30 lists it for, and A where the operand is the accumulator. -/
theorem mem_registerWriters_of_mem_regs (m : Mnemonic) :
    ∀ acc, ∀ r ∈ (Shape.ofMnemonic m).regs acc, m ∈ registerWriters r ∨ r = .a ∧ acc = true := by
  cases m <;> decide

/-- Only JSR has the shape of a call. -/
theorem eq_jsr_of_call {i : Instr} {w : Word} (h : Shape.ofMnemonic i.mnemonic = .call) (ho : i.operand = .absolute w) :
    i = .jsr w := by
  cases i <;> cases h
  cases ho
  rfl

/-- An instruction writes the registers and flags its shape lists and no other, an interceptor handler apart. -/
theorem exec_touchesOnly {i : Instr} {s t : State} (hi : NotIntercepted i s) (h : exec i s = .next t) :
    TouchesOnly ((Shape.ofMnemonic i.mnemonic).regs (i.operand.mode = .accumulator)) (Shape.ofMnemonic i.mnemonic).flags s t :=
  Shape.run_touchesOnly (fun hc w ho => hi w (eq_jsr_of_call hc ho)) (exec_eq_run i s ▸ h)

/-- Settles O42: a flag the instruction is no listed writer of is none its shape writes. -/
theorem onlyListedInstructionsWriteAFlag : Obligations.OnlyListedInstructionsWriteAFlag := by
  intro i s t f hi h hf
  exact (exec_touchesOnly hi h).2 f fun hmem => hf (mem_flagWriters_of_mem_flags _ f hmem)

/-- Settles O43: a register the instruction is no listed writer of is none its shape writes. -/
theorem onlyListedInstructionsWriteARegister : Obligations.OnlyListedInstructionsWriteARegister := by
  intro i s t r hi h hr hacc
  refine (exec_touchesOnly hi h).1 r fun hmem => ?_
  rcases mem_registerWriters_of_mem_regs _ _ r hmem with hw | ⟨ha, hm⟩
  · exact hr hw
  · exact hacc ha (of_decide_eq_true hm)

end Sys2Proof.Proofs
end

section
/-! PROOFS. Memory, bus and stack (20_memory.md): what hooked accesses, a push and a pull do, and which instructions
write cells and reach the VIA's registers. -/

namespace Sys2Proof.Machine

/-- A hooked write changes no register (R63, R430). -/
@[simp] theorem State.reg_memWrite (q : Reg) (a : Word) (v : Byte) (s : State) : (s.memWrite a v).reg q = s.reg q :=
  State.reg_congr (State.memWrite_a a v s) (State.memWrite_x a v s) (State.memWrite_y a v s) (State.memWrite_sp a v s) q

/-! ### Hooked reads under the column fallback -/

section column
variable {s : State} (hcol : s.cfg.kbdFallback = .column)
include hcol

/-- The column test draws no free value (R433). -/
theorem State.fallback_state_of_column : s.fallback.2 = s := by
  unfold State.fallback
  split
  · rfl
  · rw [hcol]

theorem State.viaRead_state_of_column {a : Word} {r : Byte × State} (h : s.viaRead a = some r) : r.2 = s := by
  unfold State.viaRead at h
  split at h
  · cases h; exact State.fallback_state_of_column hcol
  · split at h
    · cases h; rfl
    · split at h
      · cases h; rfl
      · cases h

theorem askReadHooks_state_of_column {hs : List Hook} {a : Word} {r : Byte × State}
    (h : askReadHooks hs a s = some r) : r.2 = s := by
  induction hs with
  | nil => cases h
  | cons k rest ih =>
    cases k
    unfold askReadHooks at h
    split at h
    · next hr => cases h; exact State.viaRead_state_of_column hcol hr
    · exact ih h

/-- Where the fallback is the column test, a hooked read changes nothing at all (R74, R434). -/
theorem State.memRead_state_of_column (a : Word) : (s.memRead a).2 = s := by
  unfold State.memRead
  split
  · next h => exact askReadHooks_state_of_column hcol h
  · rfl

end column

/-! ### What only writes on the bus can change -/

/-- The VIA's fields that only its write hook writes: the agents never do (R431, R445, R452). -/
def State.viaSettings (s : State) : BitVec 7 × Bool × Byte × Byte := (s.enable, s.autoscan, s.ddra, s.lastProbe)

/-- What a write on the bus can change and no read, register or agent does (R67, R431). -/
def State.written (s : State) : Memory × BitVec 7 × Bool × Byte × Byte := (s.mem, s.viaSettings)

section written
variable {s t : State}

theorem State.viaSettings_eq_of_written (h : t.written = s.written) : t.viaSettings = s.viaSettings :=
  congrArg Prod.snd h

theorem State.mem_eq_of_written (h : t.written = s.written) : t.mem = s.mem := congrArg Prod.fst h

theorem Accessed.written_eq {n : Nat} (h : Accessed n s t) : t.written = s.written := by
  simp only [State.written, State.viaSettings, h.mem_eq, h.enable_eq, h.autoscan_eq, h.ddra_eq, h.lastProbe_eq]

@[simp] theorem State.setReg_written (r : Reg) (v : Byte) (s : State) : (s.setReg r v).written = s.written := by
  cases r <;> rfl

@[simp] theorem State.busPull_written (s : State) : s.busPull.2.written = s.written := by
  simp [State.written, State.viaSettings]

@[simp] theorem State.busPull16_written (s : State) : s.busPull16.2.written = s.written := by
  simp [State.written, State.viaSettings]

@[simp] theorem State.returnFromHandler_written (s : State) : s.returnFromHandler.written = s.written := by
  simp [State.written, State.viaSettings]

/-- A push is raw: it never reaches the VIA (R70, R431). -/
@[simp] theorem State.busPush_viaSettings (s : State) (v : Byte) : (s.busPush v).viaSettings = s.viaSettings := by
  simp [State.viaSettings]

@[simp] theorem State.enterHandler_viaSettings (ret : Word) (status : Byte) (s : State) :
    (s.enterHandler ret status).viaSettings = s.viaSettings := by
  simp [State.viaSettings]

@[simp] theorem State.interleave_viaSettings (s : State) : s.interleave.viaSettings = s.viaSettings := by
  simp [State.viaSettings]

theorem calling_viaSettings (w : Word) (s : State) : (calling w s).viaSettings = s.viaSettings :=
  (State.busPush_viaSettings _ (lo8 (s.pc + 2))).trans (s.busPush_viaSettings _)

end written

/-! ### The shapes that write on the bus -/

section shapes
variable {s t : State} {op : Byte} {o : Operand}

theorem reading_written {f : Byte → State → State} (h : reading op o f s = .next t)
    (hf : ∀ m u, (f m u).written = u.written) : t.written = s.written := by
  unfold reading at h
  split at h
  · next m s1 hm => cases h; exact (hf m s1).trans (operandByte_accessed hm).written_eq
  · cases h

theorem addition_written {law : Byte → Byte → Bool → Sum} (h : addition law op o s = .next t) :
    t.written = s.written := by
  unfold addition at h
  split at h
  · next m s1 hm =>
    split at h
    · cases h
    · cases h; exact (operandByte_accessed hm).written_eq
  · cases h

theorem jumping_written (h : jumping op o s = .next t) : t.written = s.written := by
  unfold jumping at h
  split at h
  · next hea => cases h; exact (effectiveAddress_accessed hea).written_eq
  · cases h

theorem branching_written {f : Flag} {taken : Bool} {b : Byte} (h : branching f taken op b s = .next t) :
    t.written = s.written := by
  unfold branching at h
  split at h
  · exact jumping_written h
  · cases h; rfl

/-- The shapes whose rules write with MemWrite (R65). -/
def Shape.writesHooked : Shape → Bool
  | .store _ | .stepMemory _ | .shift _ => true
  | _ => false

/-- The shapes whose rules push (R70). -/
def Shape.pushes : Shape → Bool
  | .pha | .php | .call | .brk => true
  | _ => false

/-- A shape that neither pushes nor writes through the hooks leaves the cells and the VIA's settings: it reads, and
changes registers. -/
theorem Shape.run_written {sh : Shape} (hpush : sh.pushes = false) (hhook : sh.writesHooked = false)
    (h : sh.run op o s = .next t) : t.written = s.written := by
  cases sh with
  | pha | php | call | brk => cases hpush
  | store | stepMemory | shift => cases hhook
  | load r => exact reading_written h fun m u => u.setReg_written r m
  | comparison | logical | bitTesting => exact reading_written h fun _ _ => rfl
  | transfer src dst => cases h; exact s.setReg_written dst _
  | stepRegister f r => cases h; exact s.setReg_written r _
  | addition law => exact addition_written h
  | jump => exact jumping_written h
  | branch f taken =>
    cases o with
    | relative b => exact branching_written h
    | _ => cases h
  | txs | flagging | nop => cases h; rfl
  | ret => cases h; exact s.busPull16_written
  | pla | plp => cases h; exact s.busPull_written
  | rti => cases h; exact s.returnFromHandler_written

/-- A shift of the accumulator writes no cell (R268). -/
theorem shiftA_written {f : Shift} (h : shiftA f s = .next t) : t.written = s.written := by
  cases h; rfl

/-- A shape that writes nothing through the hooks leaves the VIA's settings, an interceptor handler apart: the stack
never reaches the VIA (R431). -/
theorem Shape.run_viaSettings {sh : Shape} (hhook : sh.writesHooked = false)
    (hcall : sh = .call → ∀ w, o = .absolute w → w ∉ s.cfg.interceptors) (h : sh.run op o s = .next t) :
    t.viaSettings = s.viaSettings := by
  cases sh with
  | pha => cases h; exact s.busPush_viaSettings s.a
  | php => cases h; exact s.busPush_viaSettings s.softwareStatus
  | call =>
    cases o with
    | absolute w =>
      have hw : w ∉ s.cfg.interceptors := hcall rfl w rfl
      simp only [Shape.run, execJsr, State.intercept_unregistered hw] at h
      cases h
      exact calling_viaSettings w s
    | _ => cases h
  | brk => cases h; exact (State.enterHandler_viaSettings _ _ _).trans s.interleave_viaSettings
  | _ => exact State.viaSettings_eq_of_written (Shape.run_written rfl hhook h)

end shapes

end Sys2Proof.Machine

namespace Sys2Proof.Proofs

open Sys2Proof.Machine Sys2Proof.Claims

/-- The statements' stack cell is the model's (R22). -/
theorem stackCell_eq_stackAddr (sp : Byte) : stackCell sp = stackAddr sp := by
  apply BitVec.eq_of_toNat_eq
  have := sp.isLt
  rw [stackAddr_toNat, stackCell, BitVec.toNat_add, BitVec.toNat_setWidth, BitVec.toNat_ofNat]
  omega

/-- Settles O5: the store sets the cell, and the write hooks behind it write the VIA's fields alone. -/
theorem hookedWriteStoresItsCellOnly : Obligations.HookedWriteStoresItsCellOnly := by
  intro s a c v hwf
  have hread : ∀ c, (s.memWrite a v).rawRead c = if c = a then v else s.rawRead c :=
    fun c => State.rawRead_memWrite hwf a c v
  refine ⟨hread c, State.wf_memWrite hwf a v, State.memWrite_pc a v s, State.memWrite_p a v s,
    fun r => State.reg_memWrite r a v s, fun ha => ?_⟩
  rw [State.memRead_unhooked (by simpa using ha), hread a, if_pos rfl]

/-- Settles O6: the read hook writes the counter of free values at most, and not even that for the column test. -/
theorem readsAreIdempotent : Obligations.ReadsAreIdempotent := by
  intro s a
  refine ⟨⟨_, State.eq_of_blankDraws (s.blankDraws_memRead a)⟩, fun hcol => ?_⟩
  have hs : (s.memRead a).2 = s := State.memRead_state_of_column hcol a
  exact ⟨by rw [hs], hs⟩

/-- Settles O7: a push sets the cell at S, and S - 1 + 1 is S, so the pull reads that cell back. -/
theorem pullUndoesPush : Obligations.PullUndoesPush := by
  intro s v hwf
  have hread : ∀ c, (s.push v).rawRead c = if c = stackAddr s.sp then v else s.rawRead c := State.rawRead_push hwf v
  have hsp : (s.push v).sp + 1 = s.sp := BitVec.sub_add_cancel s.sp 1
  simp only [CellsKept, stackCell_eq_stackAddr, List.mem_singleton]
  refine ⟨by rw [hread, if_pos rfl], fun c hc => by rw [hread, if_neg hc], ?_, ?_, hsp, rfl, ?_⟩
  · rw [State.push_sp, BitVec.toNat_sub, Nat.add_comm]; rfl
  · rw [State.pull, hsp, hread, if_pos rfl]
  · rw [State.pull_sp, BitVec.toNat_add]; rfl

/-- The mnemonics whose shape pushes or writes through the hooks are those R67 lists. -/
theorem mem_cellWriters_iff (m : Mnemonic) :
    m ∈ cellWriters ↔ ((Shape.ofMnemonic m).pushes || (Shape.ofMnemonic m).writesHooked) = true := by
  cases m <;> decide

/-- The mnemonics whose shape writes through the hooks are those R65 lists. -/
theorem mem_hookedWriters_iff (m : Mnemonic) : m ∈ hookedWriters ↔ (Shape.ofMnemonic m).writesHooked = true := by
  cases m <;> decide

/-- Only the shifts have an accumulator form (R109). -/
theorem shape_of_accumulator {i : Instr} (h : i.operand.mode = .accumulator) :
    i.operand = .accumulator ∧ ∃ f, Shape.ofMnemonic i.mnemonic = .shift f := by
  cases i <;> cases h <;> exact ⟨rfl, _, rfl⟩

/-- An instruction that is no listed writer of cells, or a shift of the accumulator, writes nothing on the bus. -/
theorem exec_written {i : Instr} {s t : State} (hi : i.mnemonic ∉ cellWriters ∨ i.operand.mode = .accumulator)
    (h : exec i s = .next t) : t.written = s.written := by
  rw [exec_eq_run] at h
  rcases hi with hm | hacc
  · obtain ⟨hpush, hhook⟩ := Bool.or_eq_false_iff.1 (Bool.eq_false_iff.2 ((mem_cellWriters_iff _).not.1 hm))
    exact Shape.run_written hpush hhook h
  · obtain ⟨ho, f, hf⟩ := shape_of_accumulator hacc
    rw [ho, hf] at h
    exact shiftA_written h

/-- An instruction that is no listed hooked writer leaves the VIA's settings, an interceptor handler apart. -/
theorem exec_viaSettings {i : Instr} {s t : State} (hn : NotIntercepted i s) (hi : i.mnemonic ∉ hookedWriters)
    (h : exec i s = .next t) : t.viaSettings = s.viaSettings :=
  Shape.run_viaSettings (Bool.eq_false_iff.2 ((mem_hookedWriters_iff _).not.1 hi))
    (fun hc w ho => hn w (eq_jsr_of_call hc ho)) (exec_eq_run i s ▸ h)

/-- Settles O45: by the shape of the instruction, what writes nothing leaves the cells, and what writes on the stack
alone leaves the VIA's settings. -/
theorem onlyHookedWritesReachTheVia : Obligations.OnlyHookedWritesReachTheVia := by
  intro i s t hn h
  refine ⟨fun hi => State.mem_eq_of_written (exec_written hi h), fun hi => ?_⟩
  simpa only [State.viaSettings, Prod.mk.injEq] using exec_viaSettings hn hi h

end Sys2Proof.Proofs
end

section
/-! PROOFS. The decoder and the encoder: the one row of an instruction, the one row of an opcode byte, the one row of a
(mnemonic, mode) pair. -/

namespace Sys2Proof

/-! ### The instructions a row makes -/

/-- The instructions a format makes, one for each operand of its width (R101). -/
inductive Format.Makes : Format → Instr → Prop
  | f0 (i : Instr) : Makes (.f0 i) i
  | f1 (f : Byte → Instr) (b : Byte) : Makes (.f1 f) (f b)
  | f2 (f : Word → Instr) (w : Word) : Makes (.f2 f) (f w)

theorem Format.exists_makes (f : Format) : ∃ i, f.Makes i := by
  cases f with
  | f0 i => exact ⟨i, .f0 i⟩
  | f1 f => exact ⟨f 0, .f1 f 0⟩
  | f2 f => exact ⟨f 0, .f2 f 0⟩

section
variable {P : Instr → Prop}

theorem Format.forall_makes_f0 {j : Instr} : (∀ i, (Format.f0 j).Makes i → P i) ↔ P j :=
  ⟨fun h => h j (.f0 j), by rintro h _ ⟨⟩; exact h⟩

theorem Format.forall_makes_f1 {f : Byte → Instr} : (∀ i, (Format.f1 f).Makes i → P i) ↔ ∀ b, P (f b) :=
  ⟨fun h b => h _ (.f1 f b), by rintro h _ ⟨⟩; exact h _⟩

theorem Format.forall_makes_f2 {f : Word → Instr} : (∀ i, (Format.f2 f).Makes i → P i) ↔ ∀ w, P (f w) :=
  ⟨fun h w => h _ (.f2 f w), by rintro h _ ⟨⟩; exact h _⟩

/-- What holds of every instruction that a row makes holds of every instruction: one pass over the table gives the fact
for each constructor (R101, R105). -/
theorem Instr.forall_of_decoderTable (h : ∀ r ∈ decoderTable, ∀ i, r.format.Makes i → P i) (i : Instr) : P i := by
  simp only [decoderTable, rows0, rows4, rows8, rowsC, List.forall_mem_append, List.forall_mem_cons,
    Format.forall_makes_f0, Format.forall_makes_f1, Format.forall_makes_f2] at h
  cases i <;> simp only [h]

end

/-- Every instruction is made by a row of the table. -/
theorem exists_row_makes (i : Instr) : ∃ r ∈ decoderTable, r.format.Makes i :=
  Instr.forall_of_decoderTable (P := fun i => ∃ r ∈ decoderTable, r.format.Makes i) (fun r hr _ hi => ⟨r, hr, hi⟩) i

/-- The instructions a row makes have its mnemonic and mode (R101, R105). -/
def Row.HasPair (r : Row) : Prop :=
  ∀ i, r.format.Makes i → (i.mnemonic, i.operand.mode) = (r.mnemonic, r.mode)

theorem decoderTable_hasPair : ∀ r ∈ decoderTable, r.HasPair := by
  simp only [decoderTable, rows0, rows4, rows8, rowsC, List.forall_mem_append, List.forall_mem_cons, List.not_mem_nil,
    false_imp_iff, implies_true, and_true]
  repeat' apply And.intro
  all_goals rintro _ ⟨⟩; rfl

/-- A row makes each instruction of its format from some bytes, whatever bytes follow. -/
theorem Row.exists_make_eq_ok {r : Row} {i : Instr} (h : r.format.Makes i) (rest : List Byte) :
    ∃ bytes, r.make bytes = .ok (i, rest) := by
  obtain ⟨op, m, md, f⟩ := r
  cases h with
  | f0 => exact ⟨rest, rfl⟩
  | f1 f b => exact ⟨b :: rest, rfl⟩
  | f2 f w => exact ⟨lo8 w :: hi8 w :: rest, by simp only [Row.make, Machine.word_hi8_lo8]⟩

/-- An instruction that a row of the table makes is encoded as the row's opcode byte and bytes from which the row makes it
again. -/
theorem Row.exists_encode_append_eq {r : Row} (hr : r ∈ decoderTable) {i : Instr} (h : r.format.Makes i)
    (rest : List Byte) : ∃ bytes, encode i ++ rest = r.opcode :: bytes ∧ r.make bytes = .ok (i, rest) := by
  obtain ⟨bytes, hmake⟩ := Row.exists_make_eq_ok h rest
  exact ⟨bytes, decoderTable_sound r hr bytes rest i hmake, hmake⟩

/-- An instruction that a row of the table makes has the row's opcode byte. -/
theorem Row.opcode_of_makes {r : Row} (hr : r ∈ decoderTable) {i : Instr} (h : r.format.Makes i) :
    i.opcode = r.opcode := by
  obtain ⟨bytes, henc, -⟩ := Row.exists_encode_append_eq hr h []
  rw [List.append_nil] at henc
  rw [Instr.opcode, henc, List.headD_cons]

/-! ### The rows of the table -/

/-- The rows stand in the order of their opcode bytes (R105). -/
theorem decoderTable_opcode_isChain : (decoderTable.map Row.opcode).IsChain (· < ·) := by decide +kernel

/-- No two rows have the same opcode byte (R106). -/
theorem decoderTable_nodup_opcode : (decoderTable.map Row.opcode).Nodup :=
  (List.isChain_iff_pairwise.1 decoderTable_opcode_isChain).imp BitVec.ne_of_lt

/-- The rows of a mnemonic have the modes that R109 lists for it, each once. -/
theorem rowModes_perm (m : Mnemonic) : ((decoderTable.filter (·.mnemonic = m)).map Row.mode).Perm m.modes := by
  cases m <;> decide +kernel

theorem Mnemonic.modes_nodup (m : Mnemonic) : m.modes.Nodup := by
  cases m <;> decide

/-- The modes that R109 lists for a mnemonic are those of its rows. -/
theorem mem_modes_iff {m : Mnemonic} {md : Mode} :
    md ∈ m.modes ↔ ∃ r ∈ decoderTable, r.mnemonic = m ∧ r.mode = md := by
  simp only [← (rowModes_perm m).mem_iff, List.mem_map, List.mem_filter, decide_eq_true_eq, and_assoc]

/-- A row is known by its mnemonic and mode (R105). -/
theorem Row.eq_of_pair_eq {q r : Row} (hq : q ∈ decoderTable) (hr : r ∈ decoderTable) (hm : q.mnemonic = r.mnemonic)
    (hmd : q.mode = r.mode) : q = r := by
  have hnodup : ((decoderTable.filter (·.mnemonic = r.mnemonic)).map Row.mode).Nodup :=
    (rowModes_perm r.mnemonic).nodup_iff.2 r.mnemonic.modes_nodup
  exact List.inj_on_of_nodup_map hnodup (List.mem_filter.2 ⟨hq, decide_eq_true hm⟩)
    (List.mem_filter.2 ⟨hr, decide_eq_true rfl⟩) hmd

/-- The lookup of a row's opcode byte answers that row (R106). -/
theorem lookup_opcode_of_mem {r : Row} (hr : r ∈ decoderTable) : lookup r.opcode = some r := by
  have hfound : (lookup r.opcode).isSome := List.find?_isSome.2 ⟨r, hr, beq_self_eq_true _⟩
  obtain ⟨q, hq⟩ := Option.isSome_iff_exists.1 hfound
  obtain ⟨hmem, hop⟩ := lookup_some hq
  rw [hq, List.inj_on_of_nodup_map decoderTable_nodup_opcode hmem hr hop]

theorem lookup_eq_some_iff {op : Byte} {r : Row} : lookup op = some r ↔ r ∈ decoderTable ∧ r.opcode = op :=
  ⟨lookup_some, fun ⟨hr, hop⟩ => hop ▸ lookup_opcode_of_mem hr⟩

/-- A byte has a mnemonic and a mode when a row has the three of them. -/
theorem decodeOpcode_eq_some_iff {op : Byte} {m : Mnemonic} {md : Mode} :
    decodeOpcode op = some (m, md) ↔ ∃ r ∈ decoderTable, r.opcode = op ∧ r.mnemonic = m ∧ r.mode = md := by
  simp only [decodeOpcode, Option.map_eq_some_iff, lookup_eq_some_iff, Prod.mk.injEq, and_assoc]

theorem isValid_eq_false_iff {op : Byte} : isValid op = false ↔ lookup op = none := by
  rw [isValid, Option.isSome_eq_false_iff, Option.isNone_iff_eq_none]

/-- A byte without a row is a byte that no instruction has (R112). -/
theorem lookup_eq_none_iff {op : Byte} : lookup op = none ↔ ∀ i : Instr, i.opcode ≠ op := by
  constructor
  · rintro hnone i rfl
    obtain ⟨r, hr, hi⟩ := exists_row_makes i
    rw [Row.opcode_of_makes hr hi, lookup_opcode_of_mem hr] at hnone
    cases hnone
  · intro hne
    refine Option.eq_none_iff_forall_ne_some.2 fun r hr => ?_
    obtain ⟨hmem, hop⟩ := lookup_some hr
    obtain ⟨i, hi⟩ := r.format.exists_makes
    exact hne i ((Row.opcode_of_makes hmem hi).trans hop)

/-- Decoding names its first byte invalid exactly when that byte has no row; a row's own refusal is another (R112). -/
theorem decode_cons_eq_invalidOpcode_iff {op : Byte} {rest : List Byte} :
    decode (op :: rest) = .error (.invalidOpcode op) ↔ lookup op = none := by
  rw [decode]
  cases lookup op with
  | none => exact iff_of_true rfl rfl
  | some r => exact iff_of_false (fun h => by cases Row.make_error h) (Option.some_ne_none r)

/-- A byte's pair is one of the by-mnemonic table (R109). -/
theorem mode_mem_of_decodeOpcode {op : Byte} {m : Mnemonic} {md : Mode} (h : decodeOpcode op = some (m, md)) :
    md ∈ m.modes := by
  obtain ⟨r, hr, -, hpair⟩ := decodeOpcode_eq_some_iff.1 h
  exact mem_modes_iff.2 ⟨r, hr, hpair⟩

/-- A pair has at most one opcode byte (R105). -/
theorem eq_of_decodeOpcode_eq_some {op op' : Byte} {m : Mnemonic} {md : Mode} (h : decodeOpcode op = some (m, md))
    (h' : decodeOpcode op' = some (m, md)) : op' = op := by
  obtain ⟨r, hr, rfl, hm, hmd⟩ := decodeOpcode_eq_some_iff.1 h
  obtain ⟨q, hq, rfl, hm', hmd'⟩ := decodeOpcode_eq_some_iff.1 h'
  rw [Row.eq_of_pair_eq hq hr (hm'.trans hm.symm) (hmd'.trans hmd.symm)]

/-- The opcode byte of an instruction has the instruction's pair (R101). -/
theorem decodeOpcode_opcode (i : Instr) : decodeOpcode i.opcode = some (i.mnemonic, i.operand.mode) := by
  obtain ⟨r, hr, hi⟩ := exists_row_makes i
  rw [decodeOpcode, Row.opcode_of_makes hr hi, lookup_opcode_of_mem hr, Option.map_some,
    decoderTable_hasPair r hr i hi]

/-- The encoder writes as many bytes as the instruction is long (R100). -/
theorem encode_length (i : Instr) : (encode i).length = i.length := by
  cases i <;> rfl

end Sys2Proof

namespace Sys2Proof.Proofs

/-- Settles O2: the row of the instruction's opcode byte makes the instruction from the bytes the encoder writes after it. -/
theorem decodeInvertsEncode : Obligations.DecodeInvertsEncode := by
  intro i rest
  obtain ⟨r, hr, hi⟩ := exists_row_makes i
  obtain ⟨bytes, henc, hmake⟩ := Row.exists_encode_append_eq hr hi rest
  rw [henc, decode, lookup_opcode_of_mem hr]
  exact hmake

/-- Settles O3: what decodes has a row of the table, and every row agrees with the encoder. -/
theorem encodeInvertsDecode : Obligations.EncodeInvertsDecode := by
  intro bytes i rest h
  cases bytes with
  | nil => cases h
  | cons op bytes =>
    rw [decode] at h
    split at h
    · cases h
    · next r hr =>
      obtain ⟨hmem, rfl⟩ := lookup_some hr
      exact decoderTable_sound r hmem bytes rest i h

/-- Settles O4: the rows have the pairs of R109, each once, and each of their bytes once; every instruction is made by the
row of its byte, and every row makes one. -/
theorem oneOpcodeBytePerPair : Obligations.OneOpcodeBytePerPair := by
  refine ⟨fun op m md h => mode_mem_of_decodeOpcode h, fun m md h => ?_, fun i => ?_, fun op rest => ?_⟩
  · obtain ⟨r, hr, hm, hmd⟩ := mem_modes_iff.1 h
    have hop : decodeOpcode r.opcode = some (m, md) := decodeOpcode_eq_some_iff.2 ⟨r, hr, rfl, hm, hmd⟩
    exact ⟨r.opcode, hop, fun op' h' => eq_of_decodeOpcode_eq_some hop h'⟩
  · exact ⟨decodeOpcode_opcode i, encode_length i,
      List.contains_iff_mem.2 (mode_mem_of_decodeOpcode (decodeOpcode_opcode i))⟩
  · rw [isValid_eq_false_iff, decode_cons_eq_invalidOpcode_iff]
    exact ⟨lookup_eq_none_iff, Iff.rfl⟩

/-- Settles O1, by running the decoder on the twelve words. -/
theorem wordsDecodeAsTheMapSays : Obligations.WordsDecodeAsTheMapSays := by
  unfold Obligations.WordsDecodeAsTheMapSays
  decide

end Sys2Proof.Proofs
end

section
/-! PROOFS. The CPU cycle and addressing (40_cycle_and_addressing.md): effective addresses and the operand byte in exact
arithmetic, what every instruction does to PC, that none faults, and the step around them. -/

namespace Sys2Proof.Machine

/-! ### Addresses in exact arithmetic -/

/-- A sign-extended byte is its signed value mod 2^16. -/
theorem sext16_toNat (b : Byte) : ((sext16 b).toNat : Int) = b.toInt % 65536 := by
  rw [sext16, BitVec.signExtend, BitVec.toNat_ofInt]
  exact Int.toNat_of_nonneg (Int.emod_nonneg _ (by decide))

/-- The page-0 address of a byte sum is the sum mod 2^8 (R146). -/
theorem zext16_add_toNat (b c : Byte) : (zext16 (b + c)).toNat = (b.toNat + c.toNat) % 256 := by
  rw [zext16_toNat, BitVec.toNat_add]

/-- An index added to an address wraps mod 2^16 (R147). -/
theorem add_zext16_toNat (w : Word) (b : Byte) : (w + zext16 b).toNat = (w.toNat + b.toNat) % 65536 := by
  rw [BitVec.toNat_add, zext16_toNat]

/-- A branch target: PC behind the branch, plus the signed offset, mod 2^16 (R151). -/
theorem branchTarget_toNat (pc : Word) (b : Byte) :
    ((pc + 2 + sext16 b).toNat : Int) = (pc.toNat + 2 + b.toInt) % 65536 := by
  have hb := sext16_toNat b
  rw [BitVec.toNat_add, BitVec.toNat_add]
  simp only [BitVec.reduceToNat, BitVec.ofNat_eq_ofNat]
  omega

/-- A number mod 2^8 as an address is the page-0 address of the byte it is mod 2^8. -/
theorem ofNat_mod_eq_zext16 (n : Nat) : BitVec.ofNat 16 (n % 256) = zext16 (BitVec.ofNat 8 n) := by
  apply BitVec.eq_of_toNat_eq
  rw [zext16_toNat, BitVec.toNat_ofNat, BitVec.toNat_ofNat]
  omega

/-- A pointer is the number its two reads make, low byte first (R66, R148). -/
theorem State.busReadPair_toNat (lo hi : Word) (s : State) :
    (s.busReadPair lo hi).1.toNat =
      256 * ((s.busRead lo).2.busRead hi).1.toNat + (s.busRead lo).1.toNat :=
  word_toNat _ _

/-! ### The operand byte -/

/-- The modes of R150 other than Immediate are those of an operand in memory. -/
theorem inMemory_of_mode_mem {o : Operand} (h : o.mode ∈ [Mode.zeroPage, .zeroPageX, .zeroPageY, .absolute, .absoluteX,
    .absoluteY, .indexedIndirectX, .indirectIndexedY]) : inMemory o = true := by
  cases o with
  | implied | accumulator | immediate _ | indirect _ | relative _ => simp [Operand.mode] at h
  | zeroPage _ | zeroPageX _ | zeroPageY _ | absolute _ | absoluteX _ | absoluteY _ | indexedIndirectX _
  | indirectIndexedY _ => rfl

/-- The operand byte of an operand in memory is one bus read at its effective address (R150). -/
theorem operandByte_inMemory {op : Byte} {o : Operand} {s s1 : State} {ea : Word} (ho : inMemory o = true)
    (h : effectiveAddress op o s = .ok (ea, s1)) : operandByte op o s = .ok (s1.busRead ea) := by
  unfold operandByte
  split
  · cases ho
  · rw [memoryAddress_inMemory op ho, h]

/-! ### The operands a shape takes -/

/-- The operands an instruction of a shape can have (R109, R153). -/
def Shape.accepts : Shape → Operand → Bool
  | .load _, o | .addition _, o | .comparison _, o | .logical _, o | .bitTesting, o => readable o
  | .store _, o | .stepMemory _, o => inMemory o
  | .shift _, .accumulator => true
  | .shift _, o => inMemory o
  | .jump, o => o.mode == .absolute || o.mode == .indirect
  | .call, o => o.mode == .absolute
  | .branch _ _, o => o.mode == .relative
  | _, o => o.mode == .implied

/-- Every instruction of the table has an operand its shape takes. -/
theorem shape_accepts (i : Instr) : (Shape.ofMnemonic i.mnemonic).accepts i.operand = true := by
  cases i <;> rfl

theorem eq_implied_of_mode {o : Operand} (h : (o.mode == .implied) = true) : o = .implied := by
  cases o with
  | implied => rfl
  | _ => cases h

/-! ### No shape faults on an operand it takes -/

section faults
variable {op : Byte} {o : Operand} {s : State} {e : Fault}

theorem reading_ne_fault (ho : readable o = true) (f : Byte → State → State) : reading op o f s ≠ .fault e := by
  obtain ⟨m, s1, hm, -⟩ := operandByte_readable op ho s
  rw [reading_next hm]
  exact nofun

theorem addition_ne_fault (ho : readable o = true) (law : Byte → Byte → Bool → Sum) :
    addition law op o s ≠ .fault e := by
  obtain ⟨m, s1, hm, -⟩ := operandByte_readable op ho s
  simp only [addition, hm]
  split <;> exact nofun

theorem store_ne_fault (ho : inMemory o = true) (r : Reg) : store r op o s ≠ .fault e := by
  obtain ⟨ea, s1, hea, -⟩ := effectiveAddress_inMemory op ho s
  rw [store, storing_next ho hea]
  exact nofun

theorem modifying_ne_fault (ho : inMemory o = true) (r : Byte → Bool → Byte) (f : Byte → Byte → State → State) :
    modifying op o r f s ≠ .fault e := by
  obtain ⟨ea, s1, hea, -⟩ := effectiveAddress_inMemory op ho s
  rw [modifying_next ho hea]
  exact nofun

theorem stepMemory_ne_fault (ho : inMemory o = true) (f : Byte → Byte) : stepMemory f op o s ≠ .fault e :=
  modifying_ne_fault ho _ _

theorem shiftMemory_ne_fault (ho : inMemory o = true) (f : Shift) : shiftMemory f op o s ≠ .fault e :=
  modifying_ne_fault ho _ _

theorem branching_ne_fault (f : Flag) (taken : Bool) (b : Byte) : branching f taken op b s ≠ .fault e := by
  unfold branching
  split <;> exact nofun

theorem execJsr_ne_fault (w : Word) : execJsr w s ≠ .fault e := by
  unfold execJsr
  split <;> exact nofun

/-- A shape with an operand it takes does not fault: the addressing-mode fault needs another operand (R153, R401). -/
theorem Shape.run_ne_fault {sh : Shape} (ho : sh.accepts o = true) : sh.run op o s ≠ .fault e := by
  cases sh with
  | load | comparison | logical | bitTesting => exact reading_ne_fault ho _
  | addition law => exact addition_ne_fault ho law
  | store r => exact store_ne_fault ho r
  | stepMemory f => exact stepMemory_ne_fault ho f
  | shift f =>
    cases o with
    | accumulator => exact nofun
    | _ => refine shiftMemory_ne_fault ?_ f; exact ho
  | jump =>
    cases o with
    | absolute | indirect => exact nofun
    | _ => cases ho
  | call =>
    cases o with
    | absolute w => exact execJsr_ne_fault w
    | _ => cases ho
  | branch f taken =>
    cases o with
    | relative b => exact branching_ne_fault f taken b
    | _ => cases ho
  | transfer | txs | stepRegister | ret | flagging | pha | php | pla | plp | nop | brk | rti => exact nofun

end faults

/-! ### Where PC stands after a shape that does not write it -/

@[simp] theorem State.setReg_pc (r : Reg) (v : Byte) (s : State) : (s.setReg r v).pc = s.pc := by cases r <;> rfl

/-- PC has advanced by the length of the operand's instruction (R142). -/
def PcAdvanced (o : Operand) (s t : State) : Prop := t.pc = s.pc + BitVec.ofNat 16 o.length

section pc
variable {op : Byte} {o : Operand} {s t : State}

theorem done_pcAdvanced {u : State} (h : done o u = .next t) (hu : u.pc = s.pc) : PcAdvanced o s t := by
  cases h
  rw [PcAdvanced, State.advance_pc, hu]

theorem reading_pcAdvanced {f : Byte → State → State} (h : reading op o f s = .next t)
    (hf : ∀ m u, (f m u).pc = u.pc) : PcAdvanced o s t := by
  unfold reading at h
  split at h
  · next m s1 hm => exact done_pcAdvanced h ((hf m s1).trans (operandByte_accessed hm).pc_eq)
  · cases h

theorem addition_pcAdvanced {law : Byte → Byte → Bool → Sum} (h : addition law op o s = .next t) :
    PcAdvanced o s t := by
  unfold addition at h
  split at h
  · next m s1 hm =>
    split at h
    · cases h
    · exact done_pcAdvanced h (by simpa using (operandByte_accessed hm).pc_eq)
  · cases h

theorem storing_pcAdvanced {value : State → Byte} (h : storing op o value s = .next t) : PcAdvanced o s t := by
  unfold storing at h
  split at h
  · next ea s1 hea => exact done_pcAdvanced h ((s1.busWrite_pc ea _).trans (memoryAddress_accessed hea).pc_eq)
  · cases h

theorem modifying_pcAdvanced {r : Byte → Bool → Byte} {f : Byte → Byte → State → State}
    (h : modifying op o r f s = .next t) (hf : ∀ m v u, (f m v u).pc = u.pc) : PcAdvanced o s t := by
  unfold modifying at h
  split at h
  · next ea s1 hea => exact done_pcAdvanced h (by simpa [hf] using (memoryAddress_accessed hea).pc_eq)
  · cases h

theorem stepMemory_pcAdvanced {f : Byte → Byte} (h : stepMemory f op o s = .next t) : PcAdvanced o s t :=
  modifying_pcAdvanced h fun _ _ _ => rfl

theorem shiftMemory_pcAdvanced {f : Shift} (h : shiftMemory f op o s = .next t) : PcAdvanced o s t :=
  modifying_pcAdvanced h fun _ _ _ => rfl

/-- The shapes that write PC themselves (R142). -/
def Shape.writesPc : Shape → Bool
  | .jump | .call | .ret | .branch _ _ | .brk | .rti => true
  | _ => false

/-- A shape that does not write PC ends with the PC advance, on an operand it takes (R142). -/
theorem Shape.run_pcAdvanced {sh : Shape} (hpc : sh.writesPc = false) (ho : sh.accepts o = true)
    (h : sh.run op o s = .next t) : PcAdvanced o s t := by
  cases sh with
  | jump | call | ret | branch | brk | rti => cases hpc
  | load r => exact reading_pcAdvanced h fun m u => u.setReg_pc r m
  | comparison | logical | bitTesting => exact reading_pcAdvanced h fun _ _ => rfl
  | addition law => exact addition_pcAdvanced h
  | store r => exact storing_pcAdvanced h
  | stepMemory f => exact stepMemory_pcAdvanced h
  | shift f =>
    cases o with
    | accumulator => exact done_pcAdvanced h rfl
    | _ => exact shiftMemory_pcAdvanced h
  | transfer | stepRegister => cases eq_implied_of_mode ho; exact done_pcAdvanced h (s.setReg_pc _ _)
  | txs | flagging | nop => cases eq_implied_of_mode ho; exact done_pcAdvanced h rfl
  | pha | php => cases eq_implied_of_mode ho; exact done_pcAdvanced h (State.busPush_pc _ s)
  | pla | plp => cases eq_implied_of_mode ho; exact done_pcAdvanced h s.busPull_pc

end pc

/-! ### The step of a running machine -/

/-- A running machine stops where it is told to, behind the boundary's interleaving point, and else has a CPU step
(R141, R490). -/
theorem step_running {s : State} (hs : s.status = .running) :
    step s = if s.interleave.stopRequest then .next { s.interleave with status := .stopped }
      else cpuStep s.interleave := by
  simp only [step, cycle, hs, boundaryStep]

/-- A CPU step that has fetched an instruction executes it and polls (R141). -/
theorem cpuStep_of_fetch {s u : State} {i : Instr} (h : fetch s = .ok (i, u)) : cpuStep s = finishStep (exec i u) := by
  simp only [cpuStep, h]

/-! ### The fetch where no read hook answers -/

/-- The n cells from an address up. -/
def State.cellsFrom : Nat → Word → State → List Byte
  | 0, _, _ => []
  | n + 1, a, s => s.rawRead a :: s.cellsFrom n (a + 1)

theorem State.cellsFrom_congr {s t : State} (h : t.mem = s.mem) (n : Nat) (a : Word) :
    t.cellsFrom n a = s.cellsFrom n a := by
  induction n generalizing a with
  | zero => rfl
  | succ n ih => rw [State.cellsFrom, State.cellsFrom, ih, State.rawRead_congr h]

theorem State.take_cellsFrom {m n : Nat} (h : m ≤ n) (a : Word) (s : State) :
    (s.cellsFrom n a).take m = s.cellsFrom m a := by
  induction m generalizing n a with
  | zero => rfl
  | succ m ih =>
    obtain ⟨k, rfl⟩ := Nat.exists_eq_add_of_le' h
    exact congrArg (s.rawRead a :: ·) (ih (Nat.le_add_left m k) (a + 1))

/-- No read hook claims one of the n addresses from a up. -/
def State.Unhooked (n : Nat) (a : Word) (s : State) : Prop := ∀ k < n, a + BitVec.ofNat 16 k ∉ s.cfg.readRegisters

section unhooked
variable {n : Nat} {a : Word} {s : State}

theorem State.Unhooked.mono {m : Nat} (h : s.Unhooked n a) (hm : m ≤ n) : s.Unhooked m a :=
  fun k hk => h k (Nat.lt_of_lt_of_le hk hm)

theorem State.unhooked_succ_iff :
    s.Unhooked (n + 1) a ↔ a ∉ s.cfg.readRegisters ∧ s.Unhooked n (a + 1) := by
  have hadd (k : Nat) : a + 1 + BitVec.ofNat 16 k = a + BitVec.ofNat 16 (k + 1) := by
    rw [BitVec.add_assoc, Nat.add_comm, BitVec.ofNat_add]
    rfl
  simp only [State.Unhooked, hadd, Nat.forall_lt_succ_left', BitVec.add_zero]

/-- Where no hook answers, the operand bytes are the cells, and only the agents have had steps (R62, R453). -/
theorem fetchBytes_unhooked (h : s.Unhooked n a) : fetchBytes n a s = (s.cellsFrom n a, s.points n) := by
  induction n generalizing a s with
  | zero => rfl
  | succ n ih =>
    obtain ⟨ha, hrest⟩ := State.unhooked_succ_iff.1 h
    have hnext : s.interleave.Unhooked n (a + 1) := by rwa [State.Unhooked, State.interleave_cfg]
    rw [fetchBytes, State.busRead_unhooked ha, ih hnext, State.cellsFrom_congr s.interleave_mem]
    rfl

end unhooked

end Sys2Proof.Machine

namespace Sys2Proof.Proofs

open Sys2Proof.Machine Sys2Proof.Claims

/-- Settles O15: page-0 sums are byte sums, absolute sums and branch targets word sums; none of them reads the bus. -/
theorem directEffectiveAddresses : Obligations.DirectEffectiveAddresses := by
  intro s op b w
  exact ⟨⟨_, rfl, zext16_toNat b⟩, ⟨_, rfl, zext16_add_toNat b s.x⟩, ⟨_, rfl, zext16_add_toNat b s.y⟩, ⟨_, rfl, rfl⟩,
    ⟨_, rfl, add_zext16_toNat w s.x⟩, ⟨_, rfl, add_zext16_toNat w s.y⟩, ⟨_, rfl, branchTarget_toNat s.pc b⟩⟩

/-- Settles O16: the pointer is a pair of bus reads at two page-0 addresses, which `busReadPair` makes a word. -/
theorem pointerEffectiveAddresses : Obligations.PointerEffectiveAddresses := by
  intro s op b address cells pointer plain
  have hpair (n : Nat) : pointer n = ((s.busReadPair (address n) (address (n + 1))).1.toNat,
      (s.busReadPair (address n) (address (n + 1))).2) :=
    Prod.ext (State.busReadPair_toNat _ _ s).symm rfl
  have hpointer {n : Nat} {c : Byte} (hc : BitVec.ofNat 8 n = c) :
      pointer n = ((s.busReadPair (zext16 c) (zext16 (c + 1))).1.toNat,
        (s.busReadPair (zext16 c) (zext16 (c + 1))).2) := by
    have hlo : address n = zext16 c := by rw [← hc]; exact ofNat_mod_eq_zext16 n
    have hhi : address (n + 1) = zext16 (c + 1) := by
      rw [← hc]; exact (ofNat_mod_eq_zext16 (n + 1)).trans (congrArg zext16 (BitVec.ofNat_add n 1))
    rw [hpair, hlo, hhi]
  refine ⟨fun n ⟨hlo, hhi⟩ => ?_, ⟨_, _, rfl, ?_⟩, ⟨_, _, rfl, ?_⟩⟩
  · rw [hpair, State.busReadPair_unhooked hlo hhi, word_toNat]
  · rw [hpointer (c := b + s.x) (by simp [BitVec.ofNat_add])]
    rfl
  · rw [hpointer (c := b) (by simp), add_zext16_toNat]

/-- Settles O17: an operand in memory has an effective address, and its byte is one bus read there. -/
theorem operandByteIsReadOnce : Obligations.OperandByteIsReadOnce := by
  refine fun s op b o => ⟨rfl, fun hmode => ?_⟩
  have ho := inMemory_of_mode_mem hmode
  obtain ⟨ea, s1, hea, hs1⟩ := effectiveAddress_inMemory op ho s
  refine ⟨ea, s1, (s1.busRead ea).2, (s1.busRead ea).1, hea, operandByte_inMemory ho hea, rfl, fun hplain => ?_⟩
  rw [State.busRead_unhooked (hs1.cfg_eq ▸ hplain)]
  exact hs1.rawRead_eq ea

/-- The mnemonics whose shape writes PC are those R142 sets apart. -/
theorem mem_pcWriters_iff (m : Mnemonic) : m ∈ pcWriters ↔ (Shape.ofMnemonic m).writesPc = true := by
  cases m <;> decide

/-- Settles O44: a shape that does not write PC ends with the PC advance, by the encoded length. -/
theorem pcAdvancesByLength : Obligations.PcAdvancesByLength := by
  intro i s t h hi
  rw [encode_length]
  have hpc : (Shape.ofMnemonic i.mnemonic).writesPc = false := Bool.eq_false_iff.2 ((mem_pcWriters_iff _).not.1 hi)
  exact Shape.run_pcAdvanced hpc (shape_accepts i) (exec_eq_run i s ▸ h)

/-- Settles O46: every instruction has an operand its shape takes, and no shape faults on one. -/
theorem noInstructionFaults : Obligations.NoInstructionFaults := by
  intro i s f
  rw [exec_eq_run]
  exact Shape.run_ne_fault (shape_accepts i)

/-- Settles O51: the stop is tested behind the boundary's interleaving point, and a CPU step leaves the run status. -/
theorem hostStopsAtTheBoundary : Obligations.HostStopsAtTheBoundary := by
  refine ⟨fun s hs hr => ?_, fun s t h => ?_⟩
  · rw [step_running hs, if_pos hr]
  · obtain ⟨hs, ⟨hr, rfl⟩ | ⟨i, u, v, hf, he, rfl⟩⟩ := step_next h
    · exact .inr ⟨rfl, hr⟩
    · have hexec : Kept u v := exec_keeps i u v he
      obtain ⟨-, hstatus, -⟩ :=
        (fetch_accessed hf).kept.trans (hexec.trans (v.interleave_kept.trans v.interleave.poll_kept))
      exact .inl (hstatus.trans hs)

/-- The first bytes of what decodes to an instruction are its encoding, and decode to it alone. -/
theorem decode_take_length {bytes rest : List Byte} {i : Instr} (h : decode bytes = .ok (i, rest)) :
    decode (bytes.take i.length) = .ok (i, []) := by
  rw [← encodeInvertsDecode bytes i rest h, ← encode_length, List.take_left, ← List.append_nil (encode i)]
  exact decodeInvertsEncode i []

/-- Where no hook answers at the three addresses from PC, the fetch is the decoding of their cells (R141). -/
theorem fetch_unhooked {s : State} {i : Instr} {rest : List Byte} (h : s.Unhooked 3 s.pc)
    (hd : decode (s.cellsFrom 3 s.pc) = .ok (i, rest)) : fetch s = .ok (i, s.points (i.length - 1)) := by
  obtain ⟨hpc, hoperand⟩ := State.unhooked_succ_iff.1 h
  have hd' := hd
  rw [State.cellsFrom, decode] at hd'
  split at hd'
  · cases hd'
  · next r hr =>
    have hlen : i.length = 1 + r.mode.operandLength := Row.make_length (lookup_some hr).1 hd'
    have hle : r.mode.operandLength ≤ 2 := by cases r.mode <;> decide
    have hbytes : decode (s.rawRead s.pc :: s.cellsFrom r.mode.operandLength (s.pc + 1)) = .ok (i, []) := by
      have hfirst := decode_take_length hd
      rwa [State.take_cellsFrom (by omega), hlen, Nat.add_comm] at hfirst
    simp only [fetch, State.memRead_unhooked hpc, hr, fetchBytes_unhooked (hoperand.mono hle), hbytes, hlen,
      Nat.add_sub_cancel_left]

/-- Settles O47: the fetch decodes the cells, behind as many interleaving points as the instruction is long, the
boundary's the first of them. -/
theorem stepRunsDecodedInstruction : Obligations.StepRunsDecodedInstruction := by
  intro s i rest hs hr hplain hd
  have hcells : s.interleave.cellsFrom 3 s.interleave.pc =
      [s.rawRead s.pc, s.rawRead (s.pc + 1), s.rawRead (s.pc + 2)] := by
    have htwo : s.pc + 2 = s.pc + 1 + 1 := (BitVec.add_assoc s.pc 1 1).symm
    rw [State.cellsFrom_congr s.interleave_mem, s.interleave_pc, htwo]
    rfl
  have hunhooked : s.interleave.Unhooked 3 s.interleave.pc := by
    rw [State.Unhooked, s.interleave_pc, s.interleave_cfg]
    exact hplain
  have hpoints : s.interleave.points (i.length - 1) = s.points i.length := by
    obtain ⟨n, hn⟩ : ∃ n, i.length = n + 1 := ⟨_, Nat.add_comm 1 _⟩
    rw [hn]
    rfl
  have hfetch := fetch_unhooked hunhooked (hcells ▸ hd)
  have hstep : step s = finishStep (exec i (s.points i.length)) := by
    rw [step_running hs, hr, if_neg Bool.false_ne_true, cpuStep_of_fetch (hpoints ▸ hfetch)]
  exact hstep

end Sys2Proof.Proofs
end

section
/-! PROOFS. Load, store and transfer (41_load_store_transfer.md), after the frames they leave: what an instruction that
reads the bus and computes on registers keeps, and what one hooked write adds to that. -/

namespace Sys2Proof.Machine

open Sys2Proof.Claims

/-! ### Frames -/

/-- The registers and P, blanked: what an instruction that writes nothing on the bus can change (R10). -/
def State.blankRegisters (s : State) : State := { s with pc := 0, sp := 0, a := 0, x := 0, y := 0, p := 0 }

/-- What every instruction leaves to the agents or to nobody: all a frame says beside registers and flags (R453). -/
def State.surroundings (s : State) :
    RunStatus × Config × List HandlerEffect × Schedule × Bool × Option (BitVec 7) :=
  (s.status, s.cfg, s.handlerScript, s.schedule, s.stopRequest, s.lastKey)

@[simp] theorem State.setReg_blankRegisters (r : Reg) (v : Byte) (s : State) :
    (s.setReg r v).blankRegisters = s.blankRegisters := by
  cases r <;> rfl

@[simp] theorem State.memWrite_surroundings (a : Word) (v : Byte) (s : State) :
    (s.memWrite a v).surroundings = s.surroundings :=
  (congrArg State.surroundings (s.blankVia_memWrite a v) :)

section registers
variable {s t : State} (h : t.blankRegisters = s.blankRegisters)
include h

theorem State.surroundings_eq_of_blankRegisters : t.surroundings = s.surroundings := (congrArg State.surroundings h :)
theorem State.via_eq_of_blankRegisters : t.via = s.via := (congrArg State.via h :)
theorem State.mem_eq_of_blankRegisters : t.mem = s.mem := (congrArg State.mem h :)

end registers

theorem Accessed.via_eq {n : Nat} {s t : State} (h : Accessed n s t) : t.via = (s.points n).via :=
  (congrArg State.via h.eq_points :)

theorem Accessed.surroundings_eq {n : Nat} {s t : State} (h : Accessed n s t) :
    t.surroundings = (s.points n).surroundings :=
  (congrArg State.surroundings h.eq_points :)

/-- An interleaving point is an access without its read (R453). -/
theorem State.interleave_accessed (s : State) : Accessed 1 s s.interleave :=
  ⟨rfl, congrArg State.blankDraws s.blankAgents_interleave⟩

section frames
variable {regs : List Reg} {flags : List Flag} {n : Nat} {s t : State}

theorem frame_of_surroundings_eq (h : t.surroundings = (s.points n).surroundings) (ht : TouchesOnly regs flags s t) :
    Frame regs flags n s t := by
  simp only [State.surroundings, Prod.mk.injEq, State.points_status, State.points_cfg, State.points_handlerScript] at h
  exact ⟨ht.1, ht.2, h⟩

theorem viaKept_of_via_eq (h : t.via = (s.points n).via) : ViaKept n s t := by
  simp only [State.via, Prod.mk.injEq, State.points_enable, State.points_autoscan, State.points_ddra,
    State.points_lastProbe] at h
  obtain ⟨hpending, hnotified, henable, hautoscan, hddra, hprobe, -⟩ := h
  exact ⟨hpending, hnotified, henable, hautoscan, hddra, hprobe⟩

theorem viaWritten_of_via_eq {a : Word} {v : Byte} (h : t.via = ((s.points n).viaWrite v a).via) :
    ViaWritten n a v s t := by
  simp only [State.via, Prod.mk.injEq] at h
  obtain ⟨hpending, hnotified, henable, hautoscan, hddra, hprobe, -⟩ := h
  exact ⟨hpending, hnotified, henable, hautoscan, hddra, hprobe⟩

/-- Behind n bus reads, computing on registers changes only the registers and flags it touches. -/
theorem Accessed.kept_of_registers {u : State} (h : Accessed n s u) (hu : t.blankRegisters = u.blankRegisters)
    (ht : TouchesOnly regs flags s t) : Frame regs flags n s t ∧ ViaKept n s t ∧ CellsKept [] s t := by
  have hsurroundings := (State.surroundings_eq_of_blankRegisters hu).trans h.surroundings_eq
  have hvia := (State.via_eq_of_blankRegisters hu).trans h.via_eq
  have hmem := (State.mem_eq_of_blankRegisters hu).trans h.mem_eq
  exact ⟨frame_of_surroundings_eq hsurroundings ht, viaKept_of_via_eq hvia, fun c _ => State.rawRead_congr hmem c⟩

end frames

/-! ### Instructions that read their operand -/

/-- An instruction that reads its operand and computes on registers completes, and keeps everything else (R150). -/
theorem readsThen_of_reading {regs : List Reg} {flags : List Flag} {post : Byte → State → State → Prop} {i : Instr}
    {s : State} {f : Byte → State → State} (ho : readable i.operand = true)
    (hexec : exec i s = reading i.opcode i.operand f s)
    (htouches : ∀ {t}, reading i.opcode i.operand f s = .next t → TouchesOnly regs flags s t)
    (hregisters : ∀ m u, (f m u).blankRegisters = u.blankRegisters) (hpc : ∀ m u, (f m u).pc = u.pc)
    (hpost : ∀ m u, Accessed (operandReads i.operand) s u → post m s ((f m u).advance i.length)) :
    ReadsThen regs flags post i s := by
  obtain ⟨m, u, hm, hu⟩ := operandByte_readable i.opcode ho s
  have hnext := reading_next hm f
  exact ⟨m, u, _, hm, hexec.trans hnext, hpost m u hu, reading_pcAdvanced hnext hpc,
    hu.kept_of_registers (hregisters m u) (htouches hnext)⟩

/-- `setZN(v)` leaves Z and N as v has them (R27). -/
theorem zn_setZN (v : Byte) (s : State) : ZN v (s.setZN v) :=
  ⟨by simp [Bool.beq_eq_decide_eq], by simp [BitVec.msb_eq_getLsbD_last]⟩

/-- LDA, LDX, LDY: the register is M, Z and N follow it, and nothing else changes (R170 to R172). -/
theorem load_readsThen {r : Reg} {i : Instr} (hi : Shape.ofMnemonic i.mnemonic = .load r) (s : State) :
    ReadsThen [r] [.z, .n] (fun m _ t => t.reg r = m ∧ ZN m t) i s := by
  have ho := shape_accepts i
  have hexec := exec_eq_run i s
  rw [hi] at ho hexec
  exact readsThen_of_reading ho hexec load_touchesOnly (fun m u => u.setReg_blankRegisters r m)
    (fun m u => u.setReg_pc r m) fun m u _ => ⟨by simp, zn_setZN m _⟩

/-! ### Instructions that write one cell -/

/-- A hooked write behind n bus accesses, its own point among them: the cell, what the write hook makes of the VIA's
fields, and nothing else (R63, R430). -/
theorem writes_of_memWrite {flags : List Flag} {n : Nat} {a : Word} {v : Byte} {i : Instr} {s t u : State}
    (hwf : s.mem.wf = true) (hu : Accessed n s u) (ht : t.blankRegisters = (u.memWrite a v).blankRegisters)
    (htouches : TouchesOnly [] flags s t) (hpc : PcAdvanced i.operand s t) : Writes flags n a v i s t := by
  have hsurroundings := (State.surroundings_eq_of_blankRegisters ht).trans
    ((u.memWrite_surroundings a v).trans hu.surroundings_eq)
  have hvia : t.via = (u.memWrite a v).via := State.via_eq_of_blankRegisters ht
  have hcell (c : Word) : t.rawRead c = if c = a then v else s.rawRead c := by
    rw [State.rawRead_congr (State.mem_eq_of_blankRegisters ht), State.rawRead_memWrite (hu.mem_eq ▸ hwf),
      hu.rawRead_eq]
  refine ⟨hpc, (hcell a).trans (if_pos rfl), fun c hc => (hcell c).trans (if_neg (List.mem_singleton.not.1 hc)),
    frame_of_surroundings_eq hsurroundings htouches, fun hvh => viaWritten_of_via_eq ?written,
    fun ha => viaKept_of_via_eq ?kept⟩
  case written =>
    rw [hvia, State.memWrite_via (hu.cfg_eq ▸ hvh.2)]
    exact State.via_viaWrite (s := u.rawWrite a v) hu.via_eq v a
  case kept =>
    rw [hvia, State.memWrite_unhooked (hu.cfg_eq ▸ ha)]
    exact hu.via_eq

/-- STA, STX, STY: the register is stored at the effective address, and nothing else changes (R173 to R175). -/
theorem store_storesByte {r : Reg} {i : Instr} (hi : Shape.ofMnemonic i.mnemonic = .store r) {s : State}
    (hwf : s.mem.wf = true) : StoresByte (s.reg r) i s := by
  have ho := shape_accepts i
  have hexec := exec_eq_run i s
  rw [hi] at ho hexec
  obtain ⟨ea, u, hea, hu⟩ := effectiveAddress_inMemory i.opcode ho s
  have hnext := storing_next ho hea (State.reg r)
  exact ⟨ea, u, _, hea, hexec.trans hnext, writes_of_memWrite hwf (hu.trans u.interleave_accessed) rfl
    (storing_touchesOnly hnext) (storing_pcAdvanced hnext)⟩

/-! ### Transfers -/

/-- TAX, TAY, TXA, TYA, TSX: the register is moved, Z and N follow it, and nothing else changes (R176 to R180). -/
theorem transfer_moves {src dst : Reg} {i : Instr} (hi : Shape.ofMnemonic i.mnemonic = .transfer src dst) (s : State) :
    ∃ t : State, exec i s = .next t ∧ t.reg dst = s.reg src ∧ ZN (s.reg src) t ∧ t.pc = s.pc + 1 ∧
      Frame [dst] [.z, .n] 0 s t ∧ ViaKept 0 s t ∧ CellsKept [] s t := by
  have hexec : exec i s = transfer src dst s := by rw [exec_eq_run, hi]; rfl
  exact ⟨_, hexec, by simp, zn_setZN (s.reg src) _, congrArg (· + 1) (s.setReg_pc dst _),
    (Accessed.refl s).kept_of_registers (s.setReg_blankRegisters dst _) (transfer_touchesOnly rfl)⟩

end Sys2Proof.Machine

namespace Sys2Proof.Proofs

open Sys2Proof.Machine Sys2Proof.Claims

/-- Instructions of one mnemonic have one shape. -/
theorem shape_of_mem {is : List Instr} {m : Mnemonic} (h : is.map Instr.mnemonic = List.replicate is.length m)
    {i : Instr} (hi : i ∈ is) : Shape.ofMnemonic i.mnemonic = Shape.ofMnemonic m :=
  congrArg Shape.ofMnemonic (List.map_eq_replicate_iff.1 h i hi)

/-- Settles O18: every form of a load has the shape of its register's load, on an operand with an operand byte. -/
theorem loadsWriteRegisterAndZN : Obligations.LoadsWriteRegisterAndZN := by
  intro s b w
  exact ⟨⟨⟨rfl, rfl⟩, fun i hi => load_readsThen (shape_of_mem (m := .lda) rfl hi) s⟩,
    ⟨⟨rfl, rfl⟩, fun i hi => load_readsThen (shape_of_mem (m := .ldx) rfl hi) s⟩,
    ⟨⟨rfl, rfl⟩, fun i hi => load_readsThen (shape_of_mem (m := .ldy) rfl hi) s⟩⟩

/-- Settles O19: every form of a store has the shape of its register's store, on an operand in memory. -/
theorem storesWriteOneCell : Obligations.StoresWriteOneCell := by
  intro s b w hwf
  exact ⟨by decide, ⟨⟨rfl, rfl⟩, fun i hi => store_storesByte (shape_of_mem (m := .sta) rfl hi) hwf⟩,
    ⟨⟨rfl, rfl⟩, fun i hi => store_storesByte (shape_of_mem (m := .stx) rfl hi) hwf⟩,
    ⟨⟨rfl, rfl⟩, fun i hi => store_storesByte (shape_of_mem (m := .sty) rfl hi) hwf⟩⟩

/-- Settles O20: five of the instructions have the shape of a transfer; TXS writes S and PC alone. -/
theorem transfersMoveOneRegister : Obligations.TransfersMoveOneRegister := by
  intro s
  refine ⟨⟨rfl, rfl⟩, ?_, rfl⟩
  simp only [List.forall_mem_cons, List.not_mem_nil, false_imp_iff, implies_true, and_true]
  exact ⟨transfer_moves rfl s, transfer_moves rfl s, transfer_moves rfl s, transfer_moves rfl s, transfer_moves rfl s⟩

end Sys2Proof.Proofs
end

section
/-! PROOFS. Stack instructions (42_stack.md): what a push or a pull behind its interleaving point leaves unchanged. -/

namespace Sys2Proof.Machine

open Sys2Proof.Claims

@[simp] theorem State.push_surroundings (s : State) (v : Byte) : (s.push v).surroundings = s.surroundings := rfl

/-- A push is raw: no hook sees it (R70, R431). -/
@[simp] theorem State.push_via (s : State) (v : Byte) : (s.push v).via = s.via := rfl

@[simp] theorem State.pull_blankRegisters (s : State) : s.pull.2.blankRegisters = s.blankRegisters := rfl

/-- A push behind n bus accesses, its own point among them: the cell S names, and nothing else but registers (R70). -/
theorem Accessed.kept_of_push {regs : List Reg} {flags : List Flag} {n : Nat} {v : Byte} {s t u : State}
    (hwf : s.mem.wf = true) (hu : Accessed n s u) (ht : t.blankRegisters = (u.push v).blankRegisters)
    (htouches : TouchesOnly regs flags s t) :
    t.rawRead (stackAddr s.sp) = v ∧ Frame regs flags n s t ∧ ViaKept n s t ∧ CellsKept [stackAddr s.sp] s t := by
  have hsurroundings := (State.surroundings_eq_of_blankRegisters ht).trans
    ((u.push_surroundings v).trans hu.surroundings_eq)
  have hvia := (State.via_eq_of_blankRegisters ht).trans ((u.push_via v).trans hu.via_eq)
  have hcell (c : Word) : t.rawRead c = if c = stackAddr s.sp then v else s.rawRead c := by
    rw [State.rawRead_congr (State.mem_eq_of_blankRegisters ht), State.rawRead_push (hu.mem_eq ▸ hwf), hu.sp_eq,
      hu.rawRead_eq]
  exact ⟨(hcell _).trans (if_pos rfl), frame_of_surroundings_eq hsurroundings htouches, viaKept_of_via_eq hvia,
    fun c hc => (hcell c).trans (if_neg (List.mem_singleton.not.1 hc))⟩

/-- PHA, PHP: the byte is pushed, and nothing else changes but S (R200, R201). -/
theorem push_movesOneByte {i : Instr} {v : Byte} {s : State} (hwf : s.mem.wf = true)
    (hexec : exec i s = done .implied (s.busPush v)) :
    ∃ t : State, exec i s = .next t ∧ t.rawRead (stackAddr s.sp) = v ∧ t.sp = s.sp - 1 ∧ t.pc = s.pc + 1 ∧
      Frame [.s] [] 1 s t ∧ ViaKept 1 s t ∧ CellsKept [stackAddr s.sp] s t := by
  have hpush : TouchesOnly [.s] [] s (s.busPush v) :=
    ⟨fun q hq => s.reg_busPush (List.mem_singleton.not.1 hq) v, fun g _ => s.flag_busPush g v⟩
  have htouches : TouchesOnly [.s] [] s ((s.busPush v).advance 1) := done_touchesOnly (o := .implied) hpush rfl
  obtain ⟨hcell, hkept⟩ := s.interleave_accessed.kept_of_push hwf rfl htouches
  exact ⟨_, hexec, hcell, s.busPush_sp v, congrArg (· + 1) (s.busPush_pc v), hkept⟩

/-- An instruction that pulls a byte and then computes on registers changes only those it touches (R71). -/
theorem pull_kept {regs : List Reg} {flags : List Flag} {s t : State}
    (htouches : TouchesOnly regs flags s t) (ht : t.blankRegisters = s.busPull.2.blankRegisters) :
    Frame regs flags 1 s t ∧ ViaKept 1 s t ∧ CellsKept [] s t :=
  s.interleave_accessed.kept_of_registers (ht.trans s.interleave.pull_blankRegisters) htouches

/-- The poll behind the point after an instruction goes by the I flag the instruction left (R410). -/
theorem State.interleave_poll (t : State) : t.interleave.poll =
    if t.flag .i = false ∧ t.interleave.notified ≠ 0 then t.interleave.interruptEntry else t.interleave := by
  simp only [State.poll, State.flag_interleave, and_comm]

end Sys2Proof.Machine

namespace Sys2Proof.Proofs

open Sys2Proof.Machine Sys2Proof.Claims

/-- Settles O21: PHA and PHP are one push behind its point, PLA and PLP one pull and the registers it sets. -/
theorem stackInstructionsMoveOneByte : Obligations.StackInstructionsMoveOneByte := by
  intro s hwf
  simp only [stackCell_eq_stackAddr, List.forall_mem_cons, List.not_mem_nil, false_imp_iff, implies_true, and_true]
  refine ⟨⟨rfl, rfl⟩, ⟨push_movesOneByte hwf rfl, push_movesOneByte hwf rfl⟩, ?pla, ?plp⟩
  case pla =>
    have hexec : exec .pla s = .next (((s.busPull.2.setReg .a s.busPull.1).setZN s.busPull.1).advance 1) := rfl
    exact ⟨_, hexec, s.busPull_byte, zn_setZN s.busPull.1 _, s.busPull_sp, congrArg (· + 1) s.busPull_pc,
      pull_kept (exec_touchesOnly (i := .pla) nofun hexec) rfl⟩
  case plp =>
    have hexec : exec .plp s = .next ((s.busPull.2.setFlags s.busPull.1).advance 1) := rfl
    obtain ⟨hframe, hvia, hcells⟩ := pull_kept (exec_touchesOnly (i := .plp) nofun hexec) rfl
    exact ⟨_, hexec, s.busPull_byte, s.busPull_sp, congrArg (· + 1) s.busPull_pc, hframe, hvia, hcells,
      State.interleave_poll _⟩

end Sys2Proof.Proofs
end

section
/-! PROOFS. Arithmetic (43_arithmetic.md): ADC and SBC over their law, refused or completing; the comparisons; INC and DEC
on memory and on an index register. -/

namespace Sys2Proof.Machine

open Sys2Proof.Claims

/-- What holds after an instruction that reads its operand may be weakened. -/
theorem readsThen_imp {regs : List Reg} {flags : List Flag} {post post' : Byte → State → State → Prop} {i : Instr}
    {s : State} (h : ReadsThen regs flags post i s) (hpost : ∀ m t, post m s t → post' m s t) :
    ReadsThen regs flags post' i s := by
  obtain ⟨m, u, t, hm, hexec, ht, hkept⟩ := h
  exact ⟨m, u, t, hm, hexec, hpost m t ht, hkept⟩

/-! ### ADC and SBC -/

/-- What ADC and SBC write when they complete: A, and the flags of the sum (R223, R224). -/
def State.setSum (r : Sum) (s : State) : State := (s.setReg .a r.result).setSumFlags r

/-- With D set under Refuse ADC and SBC are refused, once the operand is read (R222). -/
theorem addition_refused {law : Byte → Byte → Bool → Sum} {i : Instr}
    (hi : Shape.ofMnemonic i.mnemonic = .addition law) {s : State} (hd : s.flag .d = true)
    (hmode : s.cfg.decimalMode = .refuse) : exec i s = .refused (.decimalArithmetic s.pc i.opcode) := by
  have ho := shape_accepts i
  have hexec := exec_eq_run i s
  rw [hi] at ho hexec
  obtain ⟨m, u, hm, -⟩ := operandByte_readable i.opcode ho s
  simp only [hexec, Shape.run, addition, hm, hd, hmode, and_self, if_true]

/-- With D clear or under Binary ADC and SBC read their operand and write the sum (R222). -/
theorem addition_eq_reading {s : State} (hd : s.flag .d = false ∨ s.cfg.decimalMode = .binary)
    (law : Byte → Byte → Bool → Sum) (op : Byte) (o : Operand) :
    addition law op o s = reading op o (fun m u => u.setSum (law s.a m (s.flag .c))) s := by
  have hcompletes : ¬(s.flag .d = true ∧ s.cfg.decimalMode = .refuse) := by
    rcases hd with hclear | hbinary
    · simp [hclear]
    · simp [hbinary]
  unfold addition reading
  cases operandByte op o s with
  | ok r => exact if_neg hcompletes
  | error e => rfl

/-- ADC and SBC that complete leave in A, C and V what the law makes of A, M and C; Z and N follow A (R223, R224). -/
theorem addition_readsThen {law : Byte → Byte → Bool → Sum} {i : Instr}
    (hi : Shape.ofMnemonic i.mnemonic = .addition law) {s : State}
    (hd : s.flag .d = false ∨ s.cfg.decimalMode = .binary) :
    ReadsThen [.a] [.c, .z, .v, .n] (fun m s t => t.a = (law s.a m (s.flag .c)).result ∧
      t.flag .c = (law s.a m (s.flag .c)).carry ∧ t.flag .v = (law s.a m (s.flag .c)).overflow ∧ ZN t.a t) i s := by
  have ho := shape_accepts i
  have hexec := exec_eq_run i s
  rw [hi] at ho hexec
  have hreading := addition_eq_reading hd law i.opcode i.operand
  exact readsThen_of_reading ho (hexec.trans hreading) (fun h => addition_touchesOnly (hreading.trans h))
    (fun _ _ => rfl) (fun _ _ => rfl)
    fun _ _ _ => ⟨rfl, by simp [State.setSum], by simp [State.setSum], zn_setZN _ _⟩

/-! ### Comparisons -/

/-- CMP, CPX, CPY: C, Z and N of the register and M, and nothing else changes (R225 to R228). -/
theorem comparison_readsThen {r : Reg} {i : Instr} (hi : Shape.ofMnemonic i.mnemonic = .comparison r) (s : State) :
    ReadsThen [] [.c, .z, .n] (fun m s t => t.flag .c = decide (m.toNat ≤ (s.reg r).toNat) ∧
      t.flag .z = decide (s.reg r = m) ∧ t.flag .n = (s.reg r - m).getLsbD 7) i s := by
  have ho := shape_accepts i
  have hexec := exec_eq_run i s
  rw [hi] at ho hexec
  refine readsThen_of_reading ho hexec comparison_touchesOnly (fun _ _ => rfl) (fun _ _ => rfl) fun m u hu => ?_
  rw [← hu.reg_eq r]
  have hzn : ZN (u.reg r - m) (u.compare (u.reg r) m) := zn_setZN _ _
  exact ⟨by simp, hzn.1.trans (decide_eq_decide.2 sub_eq_zero), hzn.2⟩

/-! ### Increment and decrement -/

/-- A function steps a byte by k mod 2^8. -/
def StepsBy (k : Nat) (f : Byte → Byte) : Prop := ∀ m, (f m).toNat = (m.toNat + k) % 256

theorem stepsBy_add_one : StepsBy 1 (fun m => m + 1) := fun m => BitVec.toNat_add m 1

theorem stepsBy_sub_one : StepsBy 255 (fun m => m - 1) := fun m => by
  rw [BitVec.toNat_sub, Nat.add_comm]
  rfl

/-- INC, DEC: the stepped byte is written back, Z and N follow it, and nothing else changes (R229, R232). -/
theorem stepMemory_modifiesByte {k : Nat} {f : Byte → Byte} (hf : StepsBy k f) {i : Instr}
    (hi : Shape.ofMnemonic i.mnemonic = .stepMemory f) {s : State} (hwf : s.mem.wf = true) :
    ModifiesByte [.z, .n] (fun m _ => BitVec.ofNat 8 (m.toNat + k)) (fun _ r t => ZN r t) i s := by
  have hresult (m : Byte) : BitVec.ofNat 8 (m.toNat + k) = f m :=
    BitVec.eq_of_toNat_eq ((BitVec.toNat_ofNat _ 8).trans (hf m).symm)
  have ho := shape_accepts i
  have hexec := exec_eq_run i s
  rw [hi] at ho hexec
  obtain ⟨ea, u, hea, hu⟩ := effectiveAddress_inMemory i.opcode ho s
  have hnext := modifying_next ho hea (fun m _ => f m) (fun _ r t => t.setZN r)
  have hread := hu.trans (u.busRead_accessed ea)
  simp only [ModifiesByte, hresult]
  exact ⟨ea, u, _, hea, hexec.trans hnext,
    writes_of_memWrite hwf (hread.trans (State.interleave_accessed _)) rfl (stepMemory_touchesOnly hnext)
      (stepMemory_pcAdvanced hnext), zn_setZN _ _⟩

/-- INX, INY, DEX, DEY: the register is stepped, Z and N follow it, and nothing else changes (R230, R231, R233, R234). -/
theorem stepRegister_steps {k : Nat} {f : Byte → Byte} (hf : StepsBy k f) {r : Reg} {i : Instr}
    (hi : Shape.ofMnemonic i.mnemonic = .stepRegister f r) (s : State) :
    ∃ t : State, exec i s = .next t ∧ (t.reg r).toNat = ((s.reg r).toNat + k) % 256 ∧ ZN (t.reg r) t ∧
      t.pc = s.pc + 1 ∧ Frame [r] [.z, .n] 0 s t ∧ ViaKept 0 s t ∧ CellsKept [] s t := by
  have hexec : exec i s = stepRegister f r s := by rw [exec_eq_run, hi]; rfl
  have hreg : (((s.setReg r (f (s.reg r))).setZN (f (s.reg r))).advance 1).reg r = f (s.reg r) := by simp
  exact ⟨_, hexec, hreg ▸ hf (s.reg r), hreg ▸ zn_setZN (f (s.reg r)) _, congrArg (· + 1) (s.setReg_pc r _),
    (Accessed.refl s).kept_of_registers (s.setReg_blankRegisters r _) (stepRegister_touchesOnly rfl)⟩

end Sys2Proof.Machine

namespace Sys2Proof.Proofs

open Sys2Proof.Machine Sys2Proof.Claims

/-- Settles O22: every form of ADC has the shape of an addition over `add8`, which is the exact sum. -/
theorem adcAddsWithCarry : Obligations.AdcAddsWithCarry := by
  intro s b w
  refine ⟨⟨rfl, rfl⟩, fun hd hmode i hi => addition_refused (shape_of_mem (m := .adc) rfl hi) hd hmode,
    fun hd i hi => readsThen_imp (addition_readsThen (shape_of_mem (m := .adc) rfl hi) hd) ?_⟩
  rintro m t ⟨ha, hc, hv, hzn⟩
  exact ⟨ha ▸ add8_result _ _ _, hc.trans (add8_carry _ _ _), hv.trans (add8_overflow _ _ _), hzn⟩

/-- Settles O23: every form of SBC has the shape of an addition over `sub8`, which is the exact difference. -/
theorem sbcSubtractsWithBorrow : Obligations.SbcSubtractsWithBorrow := by
  intro s b w
  refine ⟨⟨rfl, rfl⟩, fun hd hmode i hi => addition_refused (shape_of_mem (m := .sbc) rfl hi) hd hmode,
    fun hd i hi => readsThen_imp (addition_readsThen (shape_of_mem (m := .sbc) rfl hi) hd) ?_⟩
  rintro m t ⟨ha, hc, hv, hzn⟩
  exact ⟨ha ▸ sub8_result _ _ _, hc.trans (sub8_carry _ _ _), hv.trans (sub8_overflow _ _ _), hzn⟩

/-- Settles O25: every form of a comparison has the shape of its register's comparison. -/
theorem comparesSetFlagsOnly : Obligations.ComparesSetFlagsOnly := by
  intro s b w law
  exact ⟨⟨⟨rfl, rfl⟩, fun i hi => comparison_readsThen (shape_of_mem (m := .cmp) rfl hi) s⟩,
    ⟨⟨rfl, rfl⟩, fun i hi => comparison_readsThen (shape_of_mem (m := .cpx) rfl hi) s⟩,
    ⟨⟨rfl, rfl⟩, fun i hi => comparison_readsThen (shape_of_mem (m := .cpy) rfl hi) s⟩⟩

/-- Settles O26: every memory form of INC steps its byte by 1, of DEC by 255, which is -1 mod 2^8. -/
theorem incDecModifyMemory : Obligations.IncDecModifyMemory := by
  intro s b w hwf
  exact ⟨⟨⟨rfl, rfl⟩, fun i hi => stepMemory_modifiesByte stepsBy_add_one (shape_of_mem (m := .inc) rfl hi) hwf⟩,
    ⟨⟨rfl, rfl⟩, fun i hi => stepMemory_modifiesByte stepsBy_sub_one (shape_of_mem (m := .dec) rfl hi) hwf⟩⟩

/-- Settles O27: each instruction has the shape of a step of its register, by 1 or by 255, which is -1 mod 2^8. -/
theorem indexStepsWrap : Obligations.IndexStepsWrap := by
  intro s
  refine ⟨⟨rfl, rfl⟩, ?_⟩
  simp only [List.forall_mem_cons, List.not_mem_nil, false_imp_iff, implies_true, and_true]
  exact ⟨stepRegister_steps stepsBy_add_one rfl s, stepRegister_steps stepsBy_add_one rfl s,
    stepRegister_steps stepsBy_sub_one rfl s, stepRegister_steps stepsBy_sub_one rfl s⟩

end Sys2Proof.Proofs
end

section
/-! PROOFS. Logic, shifts and rotates (44_logic_shift.md): AND, ORA, EOR and BIT as reads of their operand; the shifts in
exact arithmetic, on A and on memory. -/

namespace Sys2Proof.Machine

open Sys2Proof.Claims

/-! ### Logic and the bit test -/

/-- AND, ORA, EOR: A is the operation of A and M, Z and N follow it, and nothing else changes (R260 to R262). -/
theorem logical_readsThen {f : Byte → Byte → Byte} {i : Instr} (hi : Shape.ofMnemonic i.mnemonic = .logical f)
    (s : State) : ReadsThen [.a] [.z, .n] (fun m s t => t.a = f s.a m ∧ ZN t.a t) i s := by
  have ho := shape_accepts i
  have hexec := exec_eq_run i s
  rw [hi] at ho hexec
  refine readsThen_of_reading ho hexec logical_touchesOnly (fun _ _ => rfl) (fun _ _ => rfl) fun m u hu => ?_
  exact ⟨congrArg (f · m) (hu.reg_eq .a), zn_setZN (f u.a m) _⟩

/-- A wider list of registers or flags leaves as much free. -/
theorem TouchesOnly.mono {regs regs' : List Reg} {flags flags' : List Flag} {s t : State}
    (h : TouchesOnly regs flags s t) (hregs : regs ⊆ regs') (hflags : flags ⊆ flags') : TouchesOnly regs' flags' s t :=
  ⟨fun q hq => h.1 q (mt (@hregs q) hq), fun g hg => h.2 g (mt (@hflags g) hg)⟩

/-- BIT: Z from A and M, N and V from M, and nothing else changes (R263). -/
theorem bitTesting_readsThen {i : Instr} (hi : Shape.ofMnemonic i.mnemonic = .bitTesting) (s : State) :
    ReadsThen [] [.z, .n, .v] (fun m s t => t.flag .z = decide (s.a &&& m = 0) ∧
      t.flag .n = m.getLsbD 7 ∧ t.flag .v = m.getLsbD 6) i s := by
  have ho := shape_accepts i
  have hexec := exec_eq_run i s
  rw [hi] at ho hexec
  have htouches {t : State} (h : bitTesting i.opcode i.operand s = .next t) : TouchesOnly [] [.z, .n, .v] s t :=
    (bitTesting_touchesOnly h).mono (List.Subset.refl []) (by decide)
  refine readsThen_of_reading ho hexec htouches (fun _ _ => rfl) (fun _ _ => rfl) fun m u hu => ?_
  have ha : u.a = s.a := hu.reg_eq .a
  exact ⟨by simp [ha, Bool.beq_eq_decide_eq], by simp, by simp⟩

/-! ### Shifts and rotates -/

/-- A shift's result is the law of the operand and the incoming carry, in exact arithmetic mod 2^8. -/
def Shift.Computes (law : Nat → Nat → Nat) (f : Shift) : Prop :=
  ∀ m c, (f.result m c).toNat = law m.toNat c.toNat % 256

/-- The carry brought in at a bit that is clear adds that bit's weight. -/
theorem toNat_or_carry {x : Byte} {k : Nat} (h : x.getLsbD k = false) (c : Bool) :
    (x ||| (if c then BitVec.twoPow 8 k else 0#8)).toNat = (x.toNat + 2 ^ k * c.toNat) % 256 := by
  cases c with
  | false => simpa using (Nat.mod_eq_of_lt x.isLt).symm
  | true =>
    have hand : x &&& BitVec.twoPow 8 k = 0#8 := by simp [BitVec.and_twoPow, h]
    simp [← BitVec.add_eq_or_of_and_eq_zero _ _ hand]

/-- ASL doubles the operand (R264). -/
theorem Shift.asl_computes : Shift.asl.Computes fun m _ => m * 2 := fun m _ => by
  rw [Shift.asl, BitVec.toNat_shiftLeft, Nat.shiftLeft_eq, Nat.pow_one]

/-- LSR halves the operand (R265). -/
theorem Shift.lsr_computes : Shift.lsr.Computes fun m _ => m / 2 := fun m _ => by
  have hlt : m.toNat / 2 < 256 := (Nat.div_le_self _ 2).trans_lt m.isLt
  rw [Shift.lsr, BitVec.toNat_ushiftRight, Nat.shiftRight_one]
  exact (Nat.mod_eq_of_lt hlt).symm

/-- ROL is ASL with the carry brought in at bit 0 (R266). -/
theorem Shift.rol_computes : Shift.rol.Computes fun m c => m * 2 + c := fun m c => by
  have hbit : (Shift.asl.result m c).getLsbD 0 = false := by simp [Shift.asl]
  have hcarry := toNat_or_carry hbit c
  rwa [Shift.asl_computes m c, Nat.mod_add_mod, Nat.pow_zero, Nat.one_mul] at hcarry

/-- ROR is LSR with the carry brought in at bit 7 (R267). -/
theorem Shift.ror_computes : Shift.ror.Computes fun m c => m / 2 + 128 * c := fun m c => by
  have hbit : (Shift.lsr.result m c).getLsbD 7 = false := by simp [Shift.lsr]
  have hcarry := toNat_or_carry hbit c
  rwa [Shift.lsr_computes m c, Nat.mod_add_mod] at hcarry

/-- A shift of A: the law's result, C the bit shifted out, Z and N of the result, and nothing else changes (R268). -/
theorem shiftA_shifts {law : Nat → Nat → Nat} {f : Shift} (hf : f.Computes law) {i : Instr} {s : State}
    (hexec : exec i s = shiftA f s) :
    ∃ t : State, exec i s = .next t ∧ t.a.toNat = law s.a.toNat (s.flag .c).toNat % 256 ∧ t.flag .c = f.out s.a ∧
      ZN t.a t ∧ t.pc = s.pc + 1 ∧ Frame [.a] [.c, .z, .n] 0 s t ∧ ViaKept 0 s t ∧ CellsKept [] s t :=
  ⟨_, hexec, hf s.a (s.flag .c), by simp, zn_setZN _ _, rfl,
    (Accessed.refl s).kept_of_registers rfl (shiftA_touchesOnly rfl)⟩

/-- A shift on an operand in memory is a shift of memory (R268). -/
theorem Shape.run_shift_inMemory {o : Operand} (ho : inMemory o = true) (f : Shift) (op : Byte) (s : State) :
    (Shape.shift f).run op o s = shiftMemory f op o s := by
  cases o with
  | accumulator => cases ho
  | _ => rfl

/-- The four operands of a read-modify-write are in memory (R150, R152). -/
theorem inMemory_of_memoryOperands {is : List Instr} {b : Byte} {w : Word}
    (h : is.map Instr.operand = memoryOperands b w) {i : Instr} (hi : i ∈ is) : inMemory i.operand = true := by
  have hall : ∀ o ∈ memoryOperands b w, inMemory o = true := by simp [memoryOperands, inMemory]
  exact hall _ (h ▸ List.mem_map_of_mem hi)

/-- A shift of memory: the law's result is written back, C is the bit shifted out, Z and N follow the result, and nothing
else changes (R152, R268). -/
theorem shiftMemory_modifiesByte {law : Nat → Nat → Nat} {f : Shift} (hf : f.Computes law) {i : Instr}
    (hi : Shape.ofMnemonic i.mnemonic = .shift f) (ho : inMemory i.operand = true) {s : State}
    (hwf : s.mem.wf = true) :
    ModifiesByte [.c, .z, .n] (fun m s => BitVec.ofNat 8 (law m.toNat (s.flag .c).toNat))
      (fun m r t => t.flag .c = f.out m ∧ ZN r t) i s := by
  have hresult (m : Byte) (c : Bool) : BitVec.ofNat 8 (law m.toNat c.toNat) = f.result m c :=
    BitVec.eq_of_toNat_eq ((BitVec.toNat_ofNat _ 8).trans (hf m c).symm)
  have hexec := exec_eq_run i s
  rw [hi, Shape.run_shift_inMemory ho] at hexec
  obtain ⟨ea, u, hea, hu⟩ := effectiveAddress_inMemory i.opcode ho s
  have hnext := modifying_next ho hea f.result (State.setShiftFlags f)
  have hread := hu.trans (u.busRead_accessed ea)
  simp only [ModifiesByte, hresult]
  exact ⟨ea, u, _, hea, hexec.trans hnext,
    writes_of_memWrite hwf (hread.trans (State.interleave_accessed _)) rfl (shiftMemory_touchesOnly hnext)
      (shiftMemory_pcAdvanced hnext), by simp, zn_setZN _ _⟩

end Sys2Proof.Machine

namespace Sys2Proof.Proofs

open Sys2Proof.Machine Sys2Proof.Claims

/-- Settles O28: every form of AND, ORA and EOR has the shape of a logical operation, which acts on each bit alone. -/
theorem logicalOperationsBitwise : Obligations.LogicalOperationsBitwise := by
  intro s b w law
  refine ⟨⟨⟨rfl, rfl⟩, fun i hi => readsThen_imp (logical_readsThen (shape_of_mem (m := .and) rfl hi) s) ?and⟩,
    ⟨⟨rfl, rfl⟩, fun i hi => readsThen_imp (logical_readsThen (shape_of_mem (m := .ora) rfl hi) s) ?ora⟩,
    ⟨⟨rfl, rfl⟩, fun i hi => readsThen_imp (logical_readsThen (shape_of_mem (m := .eor) rfl hi) s) ?eor⟩⟩
  case and => exact fun m t ⟨ha, hzn⟩ => ⟨fun j _ => ha ▸ BitVec.getLsbD_and, hzn⟩
  case ora => exact fun m t ⟨ha, hzn⟩ => ⟨fun j _ => ha ▸ BitVec.getLsbD_or, hzn⟩
  case eor => exact fun m t ⟨ha, hzn⟩ => ⟨fun j _ => ha ▸ BitVec.getLsbD_xor, hzn⟩

/-- Settles O29: both forms of BIT have the shape of a bit test; no row has the opcode byte 0x89. -/
theorem bitTestsOperand : Obligations.BitTestsOperand := by
  intro s b w
  exact ⟨by decide, ⟨rfl, rfl⟩, fun i hi => bitTesting_readsThen (shape_of_mem (m := .bit) rfl hi) s⟩

/-- Settles O30: the forms on A and the forms on memory follow one law for each of the four shifts. -/
theorem shiftsAndRotates : Obligations.ShiftsAndRotates := by
  intro s b w hwf
  refine ⟨⟨rfl, rfl⟩, ?accumulator, ⟨⟨rfl, rfl⟩, ?asl⟩, ⟨⟨rfl, rfl⟩, ?lsr⟩, ⟨⟨rfl, rfl⟩, ?rol⟩, ⟨rfl, rfl⟩, ?ror⟩
  case accumulator =>
    simp only [List.forall_mem_cons, List.not_mem_nil, false_imp_iff, implies_true, and_true]
    exact ⟨shiftA_shifts Shift.asl_computes rfl, shiftA_shifts Shift.lsr_computes rfl,
      shiftA_shifts Shift.rol_computes rfl, shiftA_shifts Shift.ror_computes rfl⟩
  case asl =>
    exact fun i hi => shiftMemory_modifiesByte Shift.asl_computes (shape_of_mem (m := .asl) rfl hi)
      (inMemory_of_memoryOperands rfl hi) hwf
  case lsr =>
    exact fun i hi => shiftMemory_modifiesByte Shift.lsr_computes (shape_of_mem (m := .lsr) rfl hi)
      (inMemory_of_memoryOperands rfl hi) hwf
  case rol =>
    exact fun i hi => shiftMemory_modifiesByte Shift.rol_computes (shape_of_mem (m := .rol) rfl hi)
      (inMemory_of_memoryOperands rfl hi) hwf
  case ror =>
    exact fun i hi => shiftMemory_modifiesByte Shift.ror_computes (shape_of_mem (m := .ror) rfl hi)
      (inMemory_of_memoryOperands rfl hi) hwf

end Sys2Proof.Proofs
end

section
/-! PROOFS. Control (45_control.md): jumps and branches; a call as two pushes behind two interleaving points, the handler
that may stand before it, and the return that undoes it. -/

namespace Sys2Proof.Machine

open Sys2Proof.Claims

/-! ### The stack across interleaving points -/

/-- An operation that commutes with every agent step and with setting the schedule commutes with an interleaving point
(R453). -/
theorem State.interleave_comm {f : State → State} (hstep : ∀ s g, (f s).agentStep g = f (s.agentStep g))
    (hschedule : ∀ s c, { f s with schedule := c } = f { s with schedule := c }) (s : State) :
    (f s).interleave = f s.interleave := by
  have hslot (c : Schedule) (slot : List AgentStep) : slot.foldl State.agentStep { f s with schedule := c } =
      f (slot.foldl State.agentStep { s with schedule := c }) := by
    rw [hschedule, List.foldl_hom f hstep]
  have hsame : (f s).schedule = s.schedule := (congrArg State.schedule (hschedule s s.schedule) :).symm
  unfold State.interleave
  rw [hsame]
  split
  · rfl
  · exact hslot _ _
  · exact hslot _ _

/-- The agents see neither S nor the cells, so a push may stand on either side of an interleaving point (R70, R79). -/
theorem State.interleave_push (s : State) (v : Byte) : (s.push v).interleave = s.interleave.push v := by
  refine State.interleave_comm (f := State.push v) (fun s g => ?_) (fun _ _ => rfl) s
  cases g with
  | fire src =>
    simp only [State.agentStep, State.fire, apply_ite (State.push v)]
    rfl
  | keyDown | keyUp | hostStop => rfl

/-- So may a pull (R71, R79). -/
theorem State.interleave_pull (s : State) : s.pull.2.interleave = s.interleave.pull.2 := by
  refine State.interleave_comm (f := fun s => s.pull.2) (fun s g => ?_) (fun _ _ => rfl) s
  cases g with
  | fire src =>
    simp only [State.agentStep, State.fire, apply_ite fun t : State => t.pull.2]
    rfl
  | keyDown | keyUp | hostStop => rfl

/-- A word is pulled as by two pulls behind two interleaving points (R72, R453). -/
theorem State.busPull16_eq_points (s : State) : s.busPull16.2 = (s.points 2).pull.2.pull.2 :=
  congrArg (fun t => t.pull.2) s.interleave.interleave_pull

/-- Interleaving points are accesses without their reads (R453). -/
theorem State.points_accessed (n : Nat) (s : State) : Accessed n s (s.points n) :=
  ⟨rfl, congrArg State.blankDraws (s.blankAgents_points n)⟩

/-- A push leaves S at another stack cell, at the wrap too (R22, R73). -/
theorem stackAddr_ne_stackAddr_sub_one (sp : Byte) : stackAddr sp ≠ stackAddr (sp - 1) := by
  rw [ne_eq, stackAddr_inj]
  bv_omega

/-! ### Jumps and branches -/

/-- The statements' address of the high byte of JMP indirect's target is the model's (R149). -/
theorem indirectHighAddress_eq_indirectHigh (pageWrap : Bool) (ptr : Word) :
    indirectHighAddress pageWrap ptr = indirectHigh pageWrap ptr := by
  have := ptr.isLt
  apply BitVec.eq_of_toNat_eq
  cases pageWrap with
  | false => simp [indirectHighAddress, indirectHigh]
  | true =>
    simp only [indirectHighAddress, indirectHigh, if_true, word_toNat, hi8_toNat, BitVec.toNat_add, lo8_toNat,
      BitVec.toNat_ofNat, BitVec.reduceToNat]
    omega

/-- A branch changes PC alone: to its target where the flag has the tested value, else past it (R305). -/
theorem branch_tests_flag {i : Instr} {f : Flag} {taken : Bool} {b : Byte}
    (hi : Shape.ofMnemonic i.mnemonic = .branch f taken) (ho : i.operand = .relative b) (s : State) :
    ∃ t : State, exec i s = .next t ∧ t = { s with pc := t.pc } ∧
      (t.pc.toNat : Int) = (s.pc.toNat + 2 + (if s.flag f = taken then b.toInt else 0)) % 65536 := by
  rw [exec_eq_run, hi, ho]
  simp only [Shape.run, branching]
  split
  · exact ⟨_, rfl, rfl, branchTarget_toNat s.pc b⟩
  · exact ⟨_, rfl, rfl, by simp [Operand.length, Operand.mode, Mode.operandLength]⟩

/-! ### Calls -/

section call
variable {s t : State} {w : Word}

/-- A call a handler handled advances PC by 3 (R302). -/
theorem exec_jsr_handled (h : s.intercept w = (true, t)) : exec (.jsr w) s = .next (t.advance 3) := by
  change execJsr w s = _
  rw [execJsr, h]
  rfl

/-- A call no handler handled runs its normal body on the state the interceptor seam left (R301, R302). -/
theorem exec_jsr_declined (h : s.intercept w = (false, t)) : exec (.jsr w) s = .next (calling w t) := by
  change execJsr w s = _
  rw [execJsr, h]

end call

section calling
variable (w : Word) (s : State)

/-- A call's body is two pushes behind two interleaving points, and the jump (R301, R453). -/
theorem calling_eq_points :
    calling w s = (((s.points 2).push (hi8 (s.pc + 2))).push (lo8 (s.pc + 2))).jump w :=
  congrArg (fun t => (t.push (lo8 (s.pc + 2))).jump w) (s.interleave.interleave_push _)

theorem calling_sp : (calling w s).sp = s.sp - 1 - 1 := by simp [calling]

theorem calling_touchesOnly : TouchesOnly [.s] [] s (calling w s) :=
  ⟨by simp_all [calling, State.reg_busPush], by simp [calling]⟩

/-- A call's body changes no register but S and PC, no flag, and nothing outside the cells (R301). -/
theorem calling_frame : Frame [.s] [] 2 s (calling w s) ∧ ViaKept 2 s (calling w s) := by
  have hcall := calling_eq_points w s
  exact ⟨frame_of_surroundings_eq (congrArg State.surroundings hcall :) (calling_touchesOnly w s),
    viaKept_of_via_eq (congrArg State.via hcall :)⟩

variable {s}

/-- A cell after a call's body: the return address, high byte at S, and every other cell as before (R301). -/
theorem rawRead_calling (hwf : s.mem.wf = true) (c : Word) : (calling w s).rawRead c =
    if c = stackAddr (s.sp - 1) then lo8 (s.pc + 2)
    else if c = stackAddr s.sp then hi8 (s.pc + 2)
    else s.rawRead c := by
  have hwf' : (s.busPush (hi8 (s.pc + 2))).mem.wf = true := by
    rw [State.busPush_mem]
    exact State.wf_rawWrite hwf _ _
  refine (State.rawRead_busPush hwf' _ c).trans ?_
  rw [State.rawRead_busPush hwf, State.busPush_sp]

/-- The return address a call's body pushes, and the cells it keeps (R301). -/
theorem calling_pushes (hwf : s.mem.wf = true) :
    (calling w s).rawRead (stackAddr s.sp) = hi8 (s.pc + 2) ∧
      (calling w s).rawRead (stackAddr (s.sp - 1)) = lo8 (s.pc + 2) ∧
      CellsKept [stackAddr s.sp, stackAddr (s.sp - 1)] s (calling w s) := by
  refine ⟨?_, ?_, fun c hc => ?_⟩
  · rw [rawRead_calling w hwf, if_neg (stackAddr_ne_stackAddr_sub_one s.sp), if_pos rfl]
  · rw [rawRead_calling w hwf, if_pos rfl]
  · simp only [List.mem_cons, List.not_mem_nil, or_false, not_or] at hc
    rw [rawRead_calling w hwf, if_neg hc.2, if_neg hc.1]

end calling

/-! ### What an interceptor handler leaves -/

section handler
variable (e : HandlerEffect) (s : State)

theorem State.nextHandler_pc : s.nextHandler.2.pc = s.pc := by
  unfold State.nextHandler
  split <;> rfl

theorem State.nextHandler_mem : s.nextHandler.2.mem = s.mem := by
  unfold State.nextHandler
  split <;> rfl

/-- A handler's call takes the head off a script that is not used up (R303; log 8). -/
theorem State.nextHandler_of_script {s : State} {rest : List HandlerEffect} (h : s.handlerScript = e :: rest) :
    s.nextHandler = (e, { s with handlerScript := rest }) := by
  unfold State.nextHandler
  rw [h]

/-- A handler's effect leaves PC: its bus writes do, and it sets the other registers alone (R303). -/
theorem State.applyHandler_pc : (s.applyHandler e).pc = s.pc :=
  List.foldlRecOn (motive := fun t : State => t.pc = s.pc) e.writes _ rfl
    fun t ht w _ => (t.memWrite_pc w.1 w.2).trans ht

theorem State.applyHandler_handlerScript : (s.applyHandler e).handlerScript = s.handlerScript :=
  List.foldlRecOn (motive := fun t : State => t.handlerScript = s.handlerScript) e.writes _ rfl
    fun t ht w _ => (t.memWrite_handlerScript w.1 w.2).trans ht

theorem State.wf_applyHandler {s : State} (h : s.mem.wf = true) : (s.applyHandler e).mem.wf = true :=
  List.foldlRecOn (motive := fun t : State => t.mem.wf = true) e.writes _ h fun _ ht w _ => State.wf_memWrite ht w.1 w.2

end handler

end Sys2Proof.Machine

namespace Sys2Proof.Proofs

open Sys2Proof.Machine Sys2Proof.Claims

/-- Settles O31: JMP indirect's target is a pair of bus reads, and the jump writes PC alone. -/
theorem jumpsGoToTheirTarget : Obligations.JumpsGoToTheirTarget := by
  intro s w
  simp only [indirectHighAddress_eq_indirectHigh]
  have hexec : exec (.jmpInd w) s =
      .next ((s.busReadPair w (indirectHigh s.cfg.jmpIndirectPageWrap w)).2.jump
        (s.busReadPair w (indirectHigh s.cfg.jmpIndirectPageWrap w)).1) := rfl
  have htouches := exec_touchesOnly (i := .jmpInd w) nofun hexec
  obtain ⟨hframe, hvia, hcells⟩ := (s.busReadPair_accessed w _).kept_of_registers rfl htouches
  refine ⟨⟨rfl, rfl⟩, rfl, _, hexec, hframe, hvia, hcells, State.busReadPair_toNat _ _ s, fun hplain => ?_⟩
  rw [List.forall_mem_cons, List.forall_mem_singleton] at hplain
  obtain ⟨hlo, hhi⟩ := hplain
  rw [State.jump_pc, State.busReadPair_unhooked hlo hhi, word_toNat]

/-- Settles O32: no handler stands before the body of the call, which pushes the two bytes of PC + 2. -/
theorem jsrPushesReturnAddress : Obligations.JsrPushesReturnAddress := by
  intro s w hwf hw
  simp only [stackCell_eq_stackAddr]
  have hexec := exec_jsr_declined (State.intercept_unregistered hw)
  obtain ⟨hframe, hvia⟩ := calling_frame w s
  obtain ⟨hhi, hlo, hcells⟩ := calling_pushes w hwf
  have hret : (s.pc + 2).toNat = (s.pc.toNat + 2) % 65536 := BitVec.toNat_add s.pc 2
  refine ⟨⟨rfl, rfl⟩, _, hexec, rfl, ?sp, ?hi, ?lo, hframe, hvia, hcells⟩
  case sp => exact (calling_sp w s).trans (BitVec.sub_sub s.sp 1 1)
  case hi => rw [hhi, hi8_toNat, hret]
  case lo => rw [hlo, lo8_toNat, hret]; omega

/-- Settles O33: the handler's writes keep PC and the canonical form of the cells; a declined call is the body of the
call on the state it left. -/
theorem interceptedCallRunsHandler : Obligations.InterceptedCallRunsHandler := by
  intro s w hw e u left
  have hintercept : s.intercept w = (e.handled, left) := State.intercept_registered hw
  have hpc : left.pc = s.pc :=
    (State.applyHandler_pc e _).trans ((State.nextHandler_pc _).trans (s.points_pc 1))
  refine ⟨fun h => ?handled, fun h => ?declined, fun f rest hscript => ?script⟩
  case handled =>
    rw [exec_jsr_handled (h ▸ hintercept), ← hpc]
    rfl
  case declined =>
    obtain ⟨hframe, hvia⟩ := calling_frame w left
    refine ⟨_, exec_jsr_declined (h ▸ hintercept), rfl, ?sp, hframe, hvia, fun hwf => ?cells⟩
    case sp => exact (calling_sp w left).trans (BitVec.sub_sub e.sp 1 1)
    case cells =>
      have hleft : left.mem.wf = true := State.wf_applyHandler e (by simpa [State.nextHandler_mem] using hwf)
      rw [stackCell_eq_stackAddr, stackCell_eq_stackAddr, ← hpc]
      exact calling_pushes w hleft
  case script =>
    have hnext := State.nextHandler_of_script f ((s.points_handlerScript 1).trans hscript)
    exact ⟨congrArg Prod.fst hnext,
      (State.applyHandler_handlerScript e _).trans (congrArg (fun r => r.2.handlerScript) hnext)⟩

/-- Settles O34: RTS is two pulls behind two interleaving points, and a jump. -/
theorem rtsReturnsPastTheCall : Obligations.RtsReturnsPastTheCall := by
  intro s
  have hexec : exec .rts s = .next (s.busPull16.2.jump (s.busPull16.1 + 1)) := rfl
  have hsp : s.sp + 2 = s.sp + 1 + 1 := (BitVec.add_assoc s.sp 1 1).symm
  have hregisters : (s.busPull16.2.jump (s.busPull16.1 + 1)).blankRegisters = (s.points 2).blankRegisters :=
    (congrArg State.blankRegisters s.busPull16_eq_points :)
  simp only [stackCell_eq_stackAddr, hsp]
  refine ⟨⟨rfl, rfl⟩, _, hexec, s.busPull16_sp, ?pc, (s.points_accessed 2).kept_of_registers hregisters
    (exec_touchesOnly (i := .rts) nofun hexec)⟩
  rw [State.jump_pc, State.busPull16_word, BitVec.toNat_add, word_toNat]
  rfl

/-- Settles O35: the two pulls read back the two bytes the call pushed. -/
theorem rtsUndoesJsr : Obligations.RtsUndoesJsr := by
  intro s t u w hwf hw hjsr hrts
  cases (exec_jsr_declined (State.intercept_unregistered hw)).symm.trans hjsr
  cases hrts
  obtain ⟨hhi, hlo, -⟩ := calling_pushes w hwf
  have hsp : (calling w s).sp + 1 = s.sp - 1 := by rw [calling_sp, BitVec.sub_add_cancel]
  have hsp' : (calling w s).sp + 1 + 1 = s.sp := by rw [hsp, BitVec.sub_add_cancel]
  refine ⟨?pc, ?sp, by simp [calling], by simp [calling], by simp [calling], by simp [calling]⟩
  case pc =>
    rw [State.jump_pc, State.busPull16_word, hsp', hsp, hhi, hlo, word_hi8_lo8]
    exact BitVec.add_assoc s.pc 2 1
  case sp => rw [State.jump_sp, State.busPull16_sp, hsp']

/-- Settles O36: each instruction has the shape of a branch on its flag and value. -/
theorem branchesTestOneFlag : Obligations.BranchesTestOneFlag := by
  intro s b
  refine ⟨⟨rfl, rfl⟩, ?_⟩
  simp only [List.forall_mem_cons, List.not_mem_nil, false_imp_iff, implies_true, and_true]
  exact ⟨branch_tests_flag rfl rfl s, branch_tests_flag rfl rfl s, branch_tests_flag rfl rfl s,
    branch_tests_flag rfl rfl s, branch_tests_flag rfl rfl s, branch_tests_flag rfl rfl s,
    branch_tests_flag rfl rfl s, branch_tests_flag rfl rfl s⟩

end Sys2Proof.Proofs
end

section
/-! PROOFS. Flag instructions, BRK and what taking an exception leaves (46_flags_system.md, 60_exceptions.md): one flag
written once and again; the entry as three pushes behind two interleaving points and a pair of bus reads; CLI's poll. -/

namespace Sys2Proof.Machine

open Sys2Proof.Claims

/-! ### Flag instructions -/

/-- Writing a flag twice is writing it once (R25). -/
@[simp] theorem Flag.put_put (f : Flag) (v : Bool) (p : Byte) : f.put v (f.put v p) = f.put v p :=
  Flag.ext fun g => by by_cases h : g = f <;> simp [h]

/-- A flag instruction writes its one flag and PC; run again, it leaves P as it is (R340 to R346). -/
theorem flagging_setsOneBit {i : Instr} {f : Flag} {v : Bool} (hi : Shape.ofMnemonic i.mnemonic = .flagging f v)
    (s : State) :
    ∃ t : State, exec i s = .next t ∧ t = { s with p := t.p, pc := s.pc + 1 } ∧ t.flag f = v ∧
      (∀ g : Flag, g ≠ f → t.flag g = s.flag g) ∧ ∃ u : State, exec i t = .next u ∧ u.p = t.p := by
  have hexec (s : State) : exec i s = .next ((s.setFlag f v).advance 1) := by rw [exec_eq_run, hi]; rfl
  exact ⟨_, hexec s, rfl, by simp, fun g hg => by simp [hg], _, hexec _, Flag.put_put f v s.p⟩

/-- With I set the poll after an instruction takes nothing (R410). -/
theorem State.interleave_poll_masked {t : State} (h : t.flag .i = true) : t.interleave.poll = t.interleave :=
  t.interleave_poll.trans (if_neg fun ⟨hi, _⟩ => Bool.false_ne_true (hi.symm.trans h))

/-- With I clear and a source notified the poll after an instruction enters the handler (R410). -/
theorem State.interleave_poll_unmasked {t : State} (h : t.flag .i = false) (hn : t.interleave.notified ≠ 0) :
    t.interleave.poll = t.interleave.interruptEntry :=
  t.interleave_poll.trans (if_pos ⟨h, hn⟩)

/-! ### What a pair of bus reads depends on -/

section inputs
variable {s t : State} (hagents : s.agents = t.agents) (hinputs : s.hookInputs = t.hookInputs)
include hagents hinputs

/-- What the VIA's read hook sees behind an interleaving point depends on what it and the agents see before it. -/
theorem State.hookInputs_interleave : s.interleave.hookInputs = t.interleave.hookInputs := by
  have hafter := State.agents_interleave hagents
  simp_all [State.hookInputs, State.agents]

theorem State.busRead_congr {a : Word} (hcell : s.rawRead a = t.rawRead a) :
    (s.busRead a).1 = (t.busRead a).1 ∧ (s.busRead a).2.hookInputs = (t.busRead a).2.hookInputs :=
  State.memRead_congr (State.hookInputs_interleave hagents hinputs) <| by
    rw [State.rawRead_congr s.interleave_mem, hcell, State.rawRead_congr t.interleave_mem]

/-- A pair of bus reads answers by its two cells and by what the agents and the VIA's read hook see (R62, R453). -/
theorem State.busReadPair_congr {lo hi : Word} (hlo : s.rawRead lo = t.rawRead lo) (hhi : s.rawRead hi = t.rawRead hi) :
    (s.busReadPair lo hi).1 = (t.busReadPair lo hi).1 := by
  obtain ⟨hl, hinputs'⟩ := State.busRead_congr hagents hinputs hlo
  have hagents' : (s.busRead lo).2.agents = (t.busRead lo).2.agents := by
    rw [State.busRead_agents, State.busRead_agents, State.agents_points hagents]
  have hhi' : (s.busRead lo).2.rawRead hi = (t.busRead lo).2.rawRead hi := by
    rw [State.rawRead_congr (s.busRead_mem lo), hhi, State.rawRead_congr (t.busRead_mem lo)]
  exact congrArg₂ word (State.busRead_congr hagents' hinputs' hhi').1 hl

end inputs

/-! ### Taking an exception -/

/-- No stack cell is one of the interrupt vector's two cells (R22, R348). -/
theorem ne_stackAddr_of_vector_le {c : Word} (hc : 0xFFFE ≤ c.toNat) (sp : Byte) : c ≠ stackAddr sp := by
  rintro rfl
  rw [stackAddr_toNat] at hc
  omega

/-- What an entry makes of the state before it reads the vector, but for the interleaving points (R348, R411). -/
def State.stacked (ret : Word) (status : Byte) (s : State) : State :=
  (((s.push (hi8 ret)).push (lo8 ret)).push status).setFlag .i true

section entry
variable (ret : Word) (status : Byte) (s : State)

theorem State.stacked_agents : (s.stacked ret status).agents = s.agents := rfl
theorem State.stacked_hookInputs : (s.stacked ret status).hookInputs = s.hookInputs := rfl
theorem State.stacked_mem : (s.stacked ret status).mem = s.framed ret status := rfl

theorem State.enterHandler_sp_eq_sub : (s.enterHandler ret status).sp = s.sp - 3 := by
  rw [State.enterHandler_sp, BitVec.sub_sub, BitVec.sub_sub]
  rfl

/-- An entry is three pushes behind two interleaving points, I set, and a jump to the word of two bus reads. -/
theorem State.enterHandler_eq_points : s.enterHandler ret status =
    (((s.points 2).stacked ret status).busRead16 Config.vecIrq).2.jump
      (((s.points 2).stacked ret status).busRead16 Config.vecIrq).1 := by
  simp only [State.enterHandler, State.stacked, State.busPush, State.interleave_push, State.points, State.jump]

theorem State.enterHandler_surroundings : (s.enterHandler ret status).surroundings = (s.points 4).surroundings := by
  have hagents := s.enterHandler_agents ret status
  simp only [State.agents, Prod.mk.injEq] at hagents
  simp [State.surroundings, hagents]

theorem State.enterHandler_via : (s.enterHandler ret status).via = (s.points 4).via := by
  have hagents := s.enterHandler_agents ret status
  simp only [State.agents, Prod.mk.injEq] at hagents
  simp [State.via, hagents]

variable {s}

/-- A cell after an entry: the frame below S, and every other cell as before. -/
theorem State.rawRead_enterHandler (hwf : s.mem.wf = true) (c : Word) : (s.enterHandler ret status).rawRead c =
    if c = stackAddr (s.sp - 1 - 1) then status
    else if c = stackAddr (s.sp - 1) then lo8 ret
    else if c = stackAddr s.sp then hi8 ret
    else s.rawRead c := by
  rw [State.rawRead, State.enterHandler_mem, State.read_framed hwf]

/-- The three bytes an entry pushes, and the cells it keeps (R348, R411). -/
theorem State.enterHandler_pushes (hwf : s.mem.wf = true) :
    (s.enterHandler ret status).rawRead (stackAddr s.sp) = hi8 ret ∧
      (s.enterHandler ret status).rawRead (stackAddr (s.sp - 1)) = lo8 ret ∧
      (s.enterHandler ret status).rawRead (stackAddr (s.sp - 2)) = status ∧
      CellsKept [stackAddr s.sp, stackAddr (s.sp - 1), stackAddr (s.sp - 2)] s (s.enterHandler ret status) := by
  have hsp : s.sp - 2 = s.sp - 1 - 1 := (BitVec.sub_sub s.sp 1 1).symm
  have hne : stackAddr s.sp ≠ stackAddr (s.sp - 1 - 1) := by
    rw [ne_eq, stackAddr_inj]
    bv_omega
  rw [hsp]
  refine ⟨?hi, ?lo, ?status, fun c hc => ?kept⟩
  case hi => rw [State.rawRead_enterHandler _ _ hwf, if_neg hne, if_neg (stackAddr_ne_stackAddr_sub_one _), if_pos rfl]
  case lo => rw [State.rawRead_enterHandler _ _ hwf, if_neg (stackAddr_ne_stackAddr_sub_one _), if_pos rfl]
  case status => rw [State.rawRead_enterHandler _ _ hwf, if_pos rfl]
  case kept =>
    simp only [List.mem_cons, List.not_mem_nil, or_false, not_or] at hc
    obtain ⟨hhi, hlo, hstatus⟩ := hc
    rw [State.rawRead_enterHandler _ _ hwf, if_neg hstatus, if_neg hlo, if_neg hhi]

/-- An entry goes to the word of two bus reads at the vector: no pushed byte lies there, and no hook sees a push
(R348, R411, R431). -/
theorem State.enterHandler_vector (hwf : s.mem.wf = true) :
    (s.enterHandler ret status).pc = ((s.points 2).busReadPair 0xFFFE#16 0xFFFF#16).1 := by
  have hwf' : (s.points 2).mem.wf = true := by rwa [s.points_mem]
  have hcell {c : Word} (hc : 0xFFFE ≤ c.toNat) :
      ((s.points 2).stacked ret status).rawRead c = (s.points 2).rawRead c := by
    rw [State.rawRead, State.stacked_mem, State.read_framed hwf']
    simp only [ne_stackAddr_of_vector_le hc, if_false]
  rw [State.enterHandler_eq_points, State.jump_pc]
  exact State.busReadPair_congr (State.stacked_agents _ _ _) (State.stacked_hookInputs _ _ _)
    (hcell (Nat.le_refl _)) (hcell (Nat.le_succ _))

/-- Where no read hook claims the vector, an entry goes to the word of its two cells (R348, R411). -/
theorem State.enterHandler_vector_unhooked (hwf : s.mem.wf = true) (hlo : 0xFFFE#16 ∉ s.cfg.readRegisters)
    (hhi : 0xFFFF#16 ∉ s.cfg.readRegisters) :
    (s.enterHandler ret status).pc.toNat = 256 * (s.rawRead 0xFFFF#16).toNat + (s.rawRead 0xFFFE#16).toNat := by
  have hcfg := s.points_cfg 2
  rw [State.enterHandler_vector _ _ hwf, State.busReadPair_unhooked (hcfg ▸ hlo) (hcfg ▸ hhi), word_toNat,
    State.rawRead_congr (s.points_mem 2), State.rawRead_congr (s.points_mem 2)]

end entry

/-- CLI's opcode byte, where no read hook answers at PC, is fetched as CLI with no further access (R141, R342). -/
theorem fetch_cli {s : State} (hpc : s.pc ∉ s.cfg.readRegisters) (hop : s.rawRead s.pc = 0x58#8) :
    fetch s = .ok (.cli, s) := by
  simp only [fetch, State.memRead_unhooked hpc, hop]
  rfl

/-- Of the I flag, an entry's frame holds the value before it (R411). -/
theorem State.interruptStatus_i (s : State) : s.interruptStatus.getLsbD 2 = s.flag .i := by
  simp [State.interruptStatus, State.flag, Flag.test, Flag.bit]

/-- A step whose instruction leaves I clear ends in the handler, where a source is notified (R141, R410). -/
theorem step_enters {s u v : State} {i : Instr} (hs : s.status = .running) (hr : s.interleave.stopRequest = false)
    (hf : fetch s.interleave = .ok (i, u)) (he : exec i u = .next v) (hi : v.flag .i = false)
    (hn : v.interleave.notified ≠ 0) : step s = .next v.interleave.interruptEntry := by
  rw [step_running hs, hr, if_neg Bool.false_ne_true, cpuStep_of_fetch hf, he, finishStep,
    State.interleave_poll_unmasked hi hn]

end Sys2Proof.Machine

namespace Sys2Proof.Proofs

open Sys2Proof.Machine Sys2Proof.Claims

/-- Settles O37: each flag instruction has the shape of its flag and value; the polls go by the I flag left. -/
theorem flagInstructionsSetOneBit : Obligations.FlagInstructionsSetOneBit := by
  intro s
  have hset (v : Bool) : ((s.setFlag .i v).advance 1).flag .i = v := by simp
  refine ⟨⟨rfl, rfl⟩, rfl, by decide, by decide, ⟨_, rfl, State.interleave_poll_masked (hset true)⟩,
    ⟨_, rfl, State.interleave_poll_unmasked (hset false)⟩, ?each⟩
  case each =>
    simp only [List.forall_mem_cons, List.not_mem_nil, false_imp_iff, implies_true, and_true]
    exact ⟨flagging_setsOneBit rfl s, flagging_setsOneBit rfl s, flagging_setsOneBit rfl s, flagging_setsOneBit rfl s,
      flagging_setsOneBit rfl s, flagging_setsOneBit rfl s, flagging_setsOneBit rfl s⟩

/-- Settles O38: BRK is an entry behind one interleaving point. -/
theorem brkEntersTheHandler : Obligations.BrkEntersTheHandler := by
  intro s hwf
  have hexec : exec .brk s = .next (s.interleave.enterHandler (s.pc + 2) s.softwareStatus) := rfl
  have hwf' : s.interleave.mem.wf = true := by rwa [s.interleave_mem]
  have htouches := exec_touchesOnly (i := .brk) nofun hexec
  have hret : (s.pc + 2).toNat = (s.pc.toNat + 2) % 65536 := BitVec.toNat_add s.pc 2
  have hi : (s.interleave.enterHandler (s.pc + 2) s.softwareStatus).flag .i = true := by simp
  obtain ⟨hhi, hlo, hstatus, hcells⟩ := State.enterHandler_pushes (s.pc + 2) s.softwareStatus hwf'
  rw [s.interleave_sp] at hhi hlo hstatus hcells
  simp only [stackCell_eq_stackAddr]
  refine ⟨⟨rfl, rfl⟩, _, hexec, ?sp, hi, State.interleave_poll_masked hi, ?hi, ?lo, hstatus, ?vector, ?plain, ?frame,
    ?via, ?cells⟩
  case sp => rw [State.enterHandler_sp_eq_sub, s.interleave_sp]
  case hi => rw [hhi, hi8_toNat, hret]
  case lo => rw [hlo, lo8_toNat, hret]; omega
  case vector =>
    rw [State.enterHandler_vector _ _ hwf', State.busReadPair_toNat]
    rfl
  case plain =>
    intro hl hh
    rw [State.enterHandler_vector_unhooked _ _ hwf' (s.interleave_cfg.symm ▸ hl) (s.interleave_cfg.symm ▸ hh),
      State.rawRead_congr s.interleave_mem, State.rawRead_congr s.interleave_mem]
  case frame => exact frame_of_surroundings_eq (State.enterHandler_surroundings _ _ s.interleave) htouches
  case via => exact viaKept_of_via_eq (State.enterHandler_via _ _ s.interleave)
  case cells => exact fun c hc => (hcells c hc).trans (State.rawRead_congr s.interleave_mem c)

/-- Settles O52: the poll of CLI's step is an entry on the state CLI leaves; the quiet agents do nothing inside it. -/
theorem cliTakesPendingInterruptAtOnce : Obligations.CliTakesPendingInterruptAtOnce := by
  intro s hrunning hstop hquiet hwf hnotified hpc hlo hhi hop
  obtain ⟨u, hexec, hu, hi, -⟩ := flagging_setsOneBit (i := .cli) rfl s
  have hupc : u.pc = s.pc + 1 := (congrArg State.pc hu :)
  have husp : u.sp = s.sp := (congrArg State.sp hu :)
  have humem : u.mem = s.mem := (congrArg State.mem hu :)
  have hucfg : u.cfg = s.cfg := (congrArg State.cfg hu :)
  have hunotified : u.notified = s.notified := (congrArg State.notified hu :)
  have huquiet : u.schedule = .quiet := (congrArg State.schedule hu :).trans hquiet
  have hpoint : s.interleave = s := State.interleave_quiet hquiet
  have hupoint : u.interleave = u := State.interleave_quiet huquiet
  have hstep : step s = .next u.interruptEntry := by
    rw [← hupoint]
    exact step_enters hrunning (hpoint.symm ▸ hstop) (hpoint.symm ▸ fetch_cli hpc hop) hexec hi
      (by rwa [hupoint, hunotified])
  obtain ⟨hpchi, hpclo, hstatus, -⟩ := State.enterHandler_pushes u.pc u.interruptStatus (humem ▸ hwf)
  obtain ⟨-, hkept, -⟩ := viaKept_of_via_eq (State.enterHandler_via u.pc u.interruptStatus u)
  simp only [stackCell_eq_stackAddr]
  rw [← hupc, ← husp, ← hunotified, State.rawRead_congr humem.symm, State.rawRead_congr humem.symm]
  refine ⟨_, hstep, (State.flag_enterHandler _ _ _ _).trans (if_pos rfl), State.enterHandler_sp_eq_sub _ _ _,
    State.enterHandler_vector_unhooked _ _ (humem ▸ hwf) (hucfg ▸ hlo) (hucfg ▸ hhi), hpchi, hpclo, ?status,
    hkept.trans (by rw [State.points_quiet huquiet])⟩
  case status => rw [State.interruptEntry, hstatus, State.interruptStatus_i, hi]

end Sys2Proof.Proofs
end

section
/-! PROOFS. The VIA and the agents (60_exceptions.md, section 4): what an interleaving point does by its schedule, what a
firing raises, and what each register's hooks make of a write and answer to a read. -/

namespace Sys2Proof.Machine

/-! ### Interleaving points -/

/-- Under a free schedule the agents take that point's free steps (R451; log 4). -/
theorem State.interleave_free {s : State} {n : Nat} (h : s.schedule = .free n) :
    s.interleave = (Config.freeAgents n).foldl State.agentStep { s with schedule := .free (n + 1) } := by
  unfold State.interleave
  rw [h]

/-- At a slot the agents take the slot's steps, in order (R453; log 4). -/
theorem State.interleave_slot {s : State} {steps : List AgentStep} {later : Schedule}
    (h : s.schedule = .slot steps later) :
    s.interleave = steps.foldl State.agentStep { s with schedule := later } := by
  unfold State.interleave
  rw [h]

/-- A free schedule has a next point behind every number of points (R451; log 4). -/
theorem State.schedule_points_free {s : State} {n : Nat} (h : s.schedule = .free n) (k : Nat) :
    (s.points k).schedule = .free (n + k) := by
  induction k generalizing s n with
  | zero => exact h
  | succ k ih =>
    have hnext : s.interleave.schedule = .free (n + 1) := by
      rw [State.interleave_free h]
      exact State.schedule_slot _ _
    rw [State.points, ih hnext, Nat.add_right_comm]
    rfl

/-! ### Bits -/

theorem getLsbD_sourceMask (k : Fin 7) {j : Nat} (hj : j < 7) : (sourceMask k).getLsbD j = decide (j = k.val) :=
  (sourceMask_getLsbD k ⟨j, hj⟩).trans (decide_eq_decide.2 Fin.ext_iff)

theorem getLsbD_bitMask (k : Fin 8) {j : Nat} (hj : j < 8) : (bitMask k).getLsbD j = decide (j = k.val) :=
  (bitMask_getLsbD k ⟨j, hj⟩).trans (decide_eq_decide.2 Fin.ext_iff)

/-- The low nibble is the number mod 16. -/
theorem toNat_lowNibble {w : Nat} (x : BitVec w) : (x.extractLsb' 0 4).toNat = x.toNat % 16 := by
  simp [BitVec.extractLsb'_toNat]

/-- Sources are all absent, or one of them is there. -/
theorem ne_zero_iff_exists_getLsbD (x : BitVec 7) : x ≠ 0 ↔ ∃ j < 7, x.getLsbD j = true := by
  constructor
  · intro hx
    by_contra hnone
    refine hx (BitVec.eq_of_getLsbD_eq fun j hj => ?_)
    exact (Bool.eq_false_iff.2 fun hbit => hnone ⟨j, hj, hbit⟩).trans BitVec.getLsbD_zero.symm
  · rintro ⟨j, -, hbit⟩ rfl
    exact Bool.false_ne_true (BitVec.getLsbD_zero.symm.trans hbit)

/-! ### A firing -/

/-- The sources a firing raises: its own, if that is enabled (R452). -/
def State.raised (src : Source) (s : State) : BitVec 7 :=
  if s.enable.getLsbD (s.cfg.sourceBit src).val then sourceMask (s.cfg.sourceBit src) else 0

theorem State.getLsbD_raised (src : Source) (s : State) {j : Nat} (hj : j < 7) :
    (s.raised src).getLsbD j = (decide (j = (s.cfg.sourceBit src).val) && s.enable.getLsbD j) := by
  unfold State.raised
  by_cases h : j = (s.cfg.sourceBit src).val
  · rw [← h, decide_eq_true rfl, Bool.true_and]
    split
    · next he => rw [getLsbD_sourceMask _ hj, decide_eq_true h, he]
    · next he => rw [Bool.eq_false_iff.2 he]; exact BitVec.getLsbD_zero
  · rw [decide_eq_false h, Bool.false_and]
    split
    · rw [getLsbD_sourceMask _ hj, decide_eq_false h]
    · exact BitVec.getLsbD_zero

/-- A firing marks what it raises as pending and as notified, and does nothing else (R452). -/
theorem State.fire_eq (src : Source) (s : State) : s.fire src =
    { s with pending := s.pending ||| s.raised src, notified := s.notified ||| s.raised src } := by
  unfold State.fire State.raised
  split
  · rfl
  · simp only [BitVec.ofNat_eq_ofNat, BitVec.or_zero]

/-! ### Writes to the registers -/

/-- The sources an IFR write leaves alone: all of them if bit 7 is set, else those it does not name (R435). -/
def unacknowledged (v : Byte) : BitVec 7 := if v.msb then BitVec.allOnes 7 else ~~~v.setWidth 7

theorem getLsbD_unacknowledged (v : Byte) {j : Nat} (hj : j < 7) :
    (unacknowledged v).getLsbD j = (v.getLsbD 7 || !v.getLsbD j) := by
  have hmsb : v.msb = v.getLsbD 7 := BitVec.msb_eq_getLsbD_last v
  unfold unacknowledged
  rw [hmsb]
  split
  · next h => rw [h, Bool.true_or, BitVec.getLsbD_allOnes, decide_eq_true hj]
  · next h => rw [Bool.eq_false_iff.2 h]; simp [hj]

theorem State.ifrWrite_eq (v : Byte) (s : State) : s.ifrWrite v =
    { s with pending := s.pending &&& unacknowledged v, notified := s.notified &&& unacknowledged v } := by
  unfold State.ifrWrite unacknowledged
  split
  · simp only [BitVec.and_allOnes]
  · rfl

/-- The enabled sources after an IER write: those it names become its bit 7 (R436). -/
def selected (v : Byte) (enable : BitVec 7) : BitVec 7 :=
  if v.msb then enable ||| v.setWidth 7 else enable &&& ~~~v.setWidth 7

theorem getLsbD_selected (v : Byte) (enable : BitVec 7) {j : Nat} (hj : j < 7) :
    (selected v enable).getLsbD j = if v.getLsbD j then v.getLsbD 7 else enable.getLsbD j := by
  have hmsb : v.msb = v.getLsbD 7 := BitVec.msb_eq_getLsbD_last v
  unfold selected
  rw [hmsb]
  split
  · next h => cases hbit : v.getLsbD j <;> simp [hj, hbit, h]
  · next h => rw [Bool.eq_false_iff.2 h]; cases hbit : v.getLsbD j <;> simp [hj, hbit]

theorem State.ierWrite_eq (v : Byte) (s : State) : s.ierWrite v = { s with enable := selected v s.enable } := by
  unfold State.ierWrite selected
  split <;> rfl

section write
variable {s : State} (hvia : s.viaHooked) (hapart : s.viaApart) (v : Byte)
include hvia hapart

/-! A hooked write at a register is the cell write and the register's action alone (R63, R430). -/

theorem State.memWrite_orb : s.memWrite s.cfg.viaOrb v = (s.rawWrite s.cfg.viaOrb v).orbWrite v :=
  (State.memWrite_via hvia.2 _ v).trans (State.viaWrite_orb (s := s.rawWrite _ v) hapart v)

theorem State.memWrite_ddra : s.memWrite s.cfg.viaDdra v = (s.rawWrite s.cfg.viaDdra v).ddraWrite v :=
  (State.memWrite_via hvia.2 _ v).trans (State.viaWrite_ddra (s := s.rawWrite _ v) hapart v)

theorem State.memWrite_ifr : s.memWrite s.cfg.viaIfr v = (s.rawWrite s.cfg.viaIfr v).ifrWrite v :=
  (State.memWrite_via hvia.2 _ v).trans (State.viaWrite_ifr (s := s.rawWrite _ v) hapart v)

theorem State.memWrite_ier : s.memWrite s.cfg.viaIer v = (s.rawWrite s.cfg.viaIer v).ierWrite v :=
  (State.memWrite_via hvia.2 _ v).trans (State.viaWrite_ier (s := s.rawWrite _ v) hapart v)

theorem State.memWrite_kbd : s.memWrite s.cfg.viaKbd v = (s.rawWrite s.cfg.viaKbd v).kbdWrite v :=
  (State.memWrite_via hvia.2 _ v).trans (State.viaWrite_kbd (s := s.rawWrite _ v) hapart v)

end write

/-! ### Reads of the registers -/

/-- The last key's column is the last column probed (R41, R443). -/
theorem State.columnMatch_iff {s : State} : s.columnMatch = true ↔
    ∃ k : BitVec 7, s.lastKey = some k ∧ k.toNat % 16 = s.lastProbe.toNat % 16 := by
  unfold State.columnMatch
  cases s.lastKey with
  | none => simp
  | some k => rw [beq_iff_eq, ← BitVec.toNat_inj, toNat_lowNibble, toNat_lowNibble]; simp

/-- The fallback bit: the column test or the free value, with autoscan off (R433; log 10). -/
theorem State.fallback_fst_iff {s : State} : s.fallback.1 = true ↔ s.autoscan = false ∧
    (s.cfg.kbdFallback = .column ∧ s.columnMatch = true ∨ s.cfg.kbdFallback = .draw ∧ Config.freeBit s.draws = true) := by
  unfold State.fallback
  cases s.autoscan <;> cases s.cfg.kbdFallback <;> simp

/-- The fallback advances the counter of free values exactly when it draws one (log 10). -/
theorem State.fallback_snd (s : State) : s.fallback.2 =
    { s with draws := if s.autoscan = false ∧ s.cfg.kbdFallback = .draw then s.draws + 1 else s.draws } := by
  unfold State.fallback
  split
  · next hscan => rw [if_neg fun h => Bool.false_ne_true (h.1.symm.trans hscan)]
  · split
    · next hcol => simp [hcol]
    · next hdraw => simp_all

/-- The sources an IFR read shows, given the fallback bit (R433). -/
def State.shownSources (fallback : Bool) (s : State) : BitVec 7 :=
  if fallback then s.pending ||| sourceMask s.cfg.srcKbd else s.pending

theorem State.getLsbD_shownSources (fallback : Bool) (s : State) {j : Nat} (hj : j < 7) :
    (s.shownSources fallback).getLsbD j = (s.pending.getLsbD j || decide (j = s.cfg.srcKbd.val) && fallback) := by
  cases fallback <;> simp [State.shownSources, getLsbD_sourceMask _ hj]

/-- A byte with the seven sources below bit 7, as the IFR and the IER are read (R433, R437). -/
def sourceByte (top : Bool) (sources : BitVec 7) : Byte :=
  (if top then bitMask 7 else 0x00#8) ||| sources.setWidth 8

theorem getLsbD_sourceByte (top : Bool) (sources : BitVec 7) {j : Nat} (hj : j < 7) :
    (sourceByte top sources).getLsbD j = sources.getLsbD j := by
  have hne : j ≠ (7 : Fin 8).val := Nat.ne_of_lt hj
  have hlt : j < 8 := Nat.lt_succ_of_lt hj
  rw [sourceByte, BitVec.getLsbD_or, BitVec.getLsbD_setWidth, decide_eq_true hlt, Bool.true_and]
  split
  · rw [getLsbD_bitMask _ hlt, decide_eq_false hne, Bool.false_or]
  · rw [BitVec.getLsbD_zero, Bool.false_or]

theorem getLsbD_sourceByte_seven (top : Bool) (sources : BitVec 7) : (sourceByte top sources).getLsbD 7 = top := by
  cases top <;> simp [sourceByte, bitMask]

theorem State.ifrByte_eq (fallback : Bool) (s : State) : s.ifrByte fallback =
    sourceByte (decide (s.shownSources fallback &&& s.enable ≠ 0)) (s.shownSources fallback) := by
  simp only [sourceByte, decide_eq_true_eq]
  rfl

theorem State.ierByte_eq (s : State) : s.ierByte = sourceByte true s.enable := rfl

theorem State.getLsbD_matrixProbe (s : State) {j : Nat} (hj : j < 8) : s.matrixProbe.getLsbD j =
    if j = s.cfg.keyPressedBit.val then s.columnMatch else s.lastProbe.getLsbD j := by
  rw [State.matrixProbe, BitVec.getLsbD_or, BitVec.getLsbD_and, BitVec.getLsbD_not, apply_ite (BitVec.getLsbD · j),
    getLsbD_bitMask _ hj, BitVec.getLsbD_zero, decide_eq_true hj]
  by_cases h : j = s.cfg.keyPressedBit.val <;> simp [h]

section read
variable {s : State} (hvia : s.viaHooked)
include hvia

/-! A hooked read at a register is the register's own answer (R62, R430). -/

theorem State.memRead_ifr : s.memRead s.cfg.viaIfr = (s.ifrByte s.fallback.1, s.fallback.2) := by
  rw [State.memRead_via hvia.1, State.viaRead, if_pos rfl]
  rfl

variable (hapart : s.viaApart)
include hapart

theorem State.memRead_ier : s.memRead s.cfg.viaIer = (s.ierByte, s) := by
  have hifr : s.cfg.viaIer ≠ s.cfg.viaIfr := by
    simp only [State.viaApart, Config.viaRegisters, List.nodup_cons, List.mem_cons, not_or] at hapart
    exact Ne.symm hapart.2.2.1.1
  rw [State.memRead_via hvia.1, State.viaRead, if_neg hifr, if_pos rfl]
  rfl

theorem State.memRead_kbd :
    s.memRead s.cfg.viaKbd = (if s.autoscan = false then s.matrixProbe else s.rawRead s.cfg.viaKbd, s) := by
  have hne : s.cfg.viaKbd ≠ s.cfg.viaIfr ∧ s.cfg.viaKbd ≠ s.cfg.viaIer := by
    simp only [State.viaApart, Config.viaRegisters, List.nodup_cons, List.mem_cons, not_or] at hapart
    exact ⟨Ne.symm hapart.2.2.1.2.1, Ne.symm hapart.2.2.2.1.1⟩
  rw [State.memRead_via hvia.1, State.viaRead, if_neg hne.1, if_neg hne.2]
  simp only [true_and]
  split <;> rfl

end read

/-- What the read hook can claim the write hook acts on (R430). -/
theorem Config.readRegisters_subset (c : Config) : c.readRegisters ⊆ c.viaRegisters := by
  simp [Config.readRegisters, Config.viaRegisters]

/-- Where the registers are apart, the read hook claims neither ORB nor DDRA (R431). -/
theorem State.writeOnly_unhooked {s : State} (hapart : s.viaApart) :
    s.cfg.viaOrb ∉ s.cfg.readRegisters ∧ s.cfg.viaDdra ∉ s.cfg.readRegisters := by
  simp only [State.viaApart, Config.viaRegisters, List.nodup_cons, List.mem_cons, not_or] at hapart
  simp only [Config.readRegisters, List.mem_cons, not_or]
  exact ⟨hapart.1.2, hapart.2.1⟩

/-- The VIA's other addresses are none of its registers' by R8's defaults (R444). -/
theorem plain_notMem_default {a : Word}
    (ha : a = 0xFE41#16 ∨ a = 0xFE42#16 ∨ 0xFE44 ≤ a.toNat ∧ a.toNat ≤ 0xFE4C) : a ∉ Config.default.viaRegisters := by
  simp only [Config.default, LaunchParams.installVia, LaunchParams.default, Config.viaRegisters, List.mem_cons,
    List.not_mem_nil, or_false]
  rintro (rfl | rfl | rfl | rfl | rfl) <;> simp at ha

end Sys2Proof.Machine

namespace Sys2Proof.Proofs

open Sys2Proof.Machine Sys2Proof.Claims

/-- Settles O53: the point takes the schedule's next entry, and the agents' steps leave the schedule that follows. -/
theorem interleavingPointsFollowTheSchedule : Obligations.InterleavingPointsFollowTheSchedule := by
  intro s
  refine ⟨fun n h => ⟨State.interleave_free h, State.schedule_points_free h⟩, fun steps later h => ?_,
    fun h => State.points_quiet h⟩
  have hpoint := State.interleave_slot h
  exact ⟨hpoint, hpoint ▸ State.schedule_slot steps _⟩

/-- Settles O14: a firing adds what it raises to pending and notified. -/
theorem agentStepsWriteOnlyTheirFields : Obligations.AgentStepsWriteOnlyTheirFields := by
  intro s src k bit
  have hbit : bit = (s.cfg.sourceBit src).val := by cases src <;> rfl
  rw [State.fire_eq, hbit]
  refine ⟨fun j hj => ?_, rfl, rfl, rfl⟩
  simp only [BitVec.getLsbD_or, State.getLsbD_raised src s hj, and_self]

/-- Settles O9: an IFR write masks pending and notified with the sources it leaves alone. -/
theorem ifrWriteAcknowledges : Obligations.IfrWriteAcknowledges := by
  intro s v hvia hapart t
  have ht : t = _ := (State.memWrite_ifr hvia hapart v).trans (State.ifrWrite_eq v _)
  rw [ht]
  refine ⟨fun j hj => ?_, rfl, rfl, rfl, rfl, rfl⟩
  simp only [BitVec.getLsbD_and, getLsbD_unacknowledged v hj, State.rawWrite_pending, State.rawWrite_notified, and_self]

/-- Settles O10: an IER write sets the sources it names to its bit 7; the read shows them below a bit 7 that is set. -/
theorem ierSelectsSources : Obligations.IerSelectsSources := by
  intro s v hvia hapart t
  have ht : t = _ := (State.memWrite_ier hvia hapart v).trans (State.ierWrite_eq v _)
  rw [ht, State.memRead_ier hvia hapart, State.ierByte_eq]
  exact ⟨fun j hj => getLsbD_selected v s.enable hj, rfl, rfl, rfl, rfl, rfl, getLsbD_sourceByte_seven true _,
    fun j hj => getLsbD_sourceByte true _ hj⟩

/-- Settles O11: each write is the cell and the register's action; the low nibble is the number mod 16. -/
theorem orbDdraKbdWrites : Obligations.OrbDdraKbdWrites := by
  intro s v hvia hapart
  refine ⟨?_, State.memWrite_ddra hvia hapart v, State.memWrite_kbd hvia hapart v⟩
  rw [State.memWrite_orb hvia hapart, State.orbWrite]
  simp only [← BitVec.toNat_inj, toNat_lowNibble]
  rfl

/-- Settles O12: with autoscan off the read is the matrix probe, bit by bit; else no hook claims it. -/
theorem kbdReadProbesColumn : Obligations.KbdReadProbesColumn := by
  intro s hvia hapart v
  have hv : v = _ := congrArg Prod.fst (State.memRead_kbd hvia hapart)
  refine ⟨fun hoff => ?off, fun hon => ?on⟩
  case off =>
    rw [hv, if_pos hoff]
    refine ⟨fun j hj hne => (s.getLsbD_matrixProbe hj).trans (if_neg hne), ?_⟩
    rw [s.getLsbD_matrixProbe s.cfg.keyPressedBit.isLt, if_pos rfl]
    exact State.columnMatch_iff
  case on => rw [hv, hon, if_neg nofun]

/-- Settles O13: no read hook claims an address outside the three it may, and no write hook acts outside the five. -/
theorem otherAddressesArePlainCells : Obligations.OtherAddressesArePlainCells := by
  intro s a v
  refine ⟨State.memRead_unhooked, fun ha => State.memWrite_unhooked ha v, fun hdefault ha => ?_, fun hapart => ?_⟩
  · have hplain : a ∉ s.cfg.viaRegisters := hdefault ▸ plain_notMem_default ha
    exact ⟨State.memRead_unhooked (mt (@Config.readRegisters_subset s.cfg a) hplain), State.memWrite_unhooked hplain v⟩
  · obtain ⟨horb, hddra⟩ := State.writeOnly_unhooked hapart
    exact ⟨State.memRead_unhooked horb, State.memRead_unhooked hddra⟩

/-- Settles O8: the sources shown are the pending ones and the fallback's; bit 7 sums up those of them that are enabled. -/
theorem ifrReadComposesPendingBits : Obligations.IfrReadComposesPendingBits := by
  intro s hvia v column drawn
  have hv : v = _ := (congrArg Prod.fst (State.memRead_ifr hvia)).trans (State.ifrByte_eq _ s)
  have hshown {j : Nat} (hj : j < 7) : v.getLsbD j = (s.shownSources s.fallback.1).getLsbD j := by
    rw [hv, getLsbD_sourceByte _ _ hj]
  have hfallback : s.fallback.1 = true ↔ s.autoscan = false ∧ (column ∨ drawn) := by
    rw [State.fallback_fst_iff, State.columnMatch_iff]
  refine ⟨fun j hj => ?source, ?summary, ?state⟩
  case source =>
    rw [hshown hj, State.getLsbD_shownSources _ _ hj, Bool.or_eq_true, Bool.and_eq_true, decide_eq_true_iff, hfallback]
  case summary =>
    have htop : v.getLsbD 7 = decide (s.shownSources s.fallback.1 &&& s.enable ≠ 0) := by
      rw [hv, getLsbD_sourceByte_seven]
    rw [htop, decide_eq_true_iff, ne_zero_iff_exists_getLsbD]
    simp only [BitVec.getLsbD_and, Bool.and_eq_true]
    exact exists_congr fun j => and_congr_right fun hj => by rw [hshown hj]
  case state => rw [State.memRead_ifr hvia, State.fallback_snd]

end Sys2Proof.Proofs
end

section
/-! PROOFS. Interrupts, faults and refusals (60_exceptions.md, sections 1 to 3): what a return from a handler leaves and
undoes; what a step that faults or is refused records; the construction check. -/

namespace Sys2Proof.Machine

open Sys2Proof.Claims

/-! ### Returning from an exception -/

theorem State.returnFromHandler_surroundings (s : State) :
    s.returnFromHandler.surroundings = (s.points 3).surroundings := by
  have hagents := s.returnFromHandler_agents
  simp only [State.agents, Prod.mk.injEq] at hagents
  simp [State.surroundings, hagents]

/-- A return acknowledges nothing (R418). -/
theorem State.returnFromHandler_via (s : State) : s.returnFromHandler.via = (s.points 3).via := by
  have hagents := s.returnFromHandler_agents
  simp only [State.agents, Prod.mk.injEq] at hagents
  simp [State.via, hagents]

/-- The poll enters where a source is notified and I is clear (R410). -/
theorem State.poll_unmasked {s : State} (hn : s.notified ≠ 0) (hi : s.flag .i = false) :
    s.poll = s.enterHandler s.pc s.interruptStatus := if_pos ⟨hn, hi⟩

/-- The status byte of an interrupt's frame has B clear, R set and the other six flags as they stand (R29, R411). -/
theorem State.test_interruptStatus (f : Flag) (s : State) :
    f.test s.interruptStatus = if f = .r then true else if f = .b then false else s.flag f := by
  have hput : s.interruptStatus = Flag.put .r true (Flag.put .b false s.p) := rfl
  rw [hput, Flag.test_put, Flag.test_put]
  rfl

/-- A return right after an entry pulls the frame that entry pushed (R348, R349, R411). -/
theorem State.returnFromHandler_enterHandler {s : State} (hwf : s.mem.wf = true) (ret : Word) (status : Byte) :
    (s.enterHandler ret status).returnFromHandler.pc = ret ∧ (s.enterHandler ret status).returnFromHandler.p = status ∧
      (s.enterHandler ret status).returnFromHandler.sp = s.sp := by
  obtain ⟨hhi, hlo, hstatus, -⟩ := State.enterHandler_pushes ret status hwf
  have hsp1 : s.sp - 3 + 1 = s.sp - 2 := by bv_omega
  have hsp2 : s.sp - 2 + 1 = s.sp - 1 := by bv_omega
  have hsp3 : s.sp - 1 + 1 = s.sp := BitVec.sub_add_cancel s.sp 1
  rw [State.returnFromHandler_pc, State.returnFromHandler_p, State.returnFromHandler_sp, State.enterHandler_sp_eq_sub,
    hsp1, hsp2, hsp3, hhi, hlo, hstatus, word_hi8_lo8]
  exact ⟨rfl, rfl, rfl⟩

/-! ### Refusals -/

section refusals
variable {op : Byte} {o : Operand} {s : State} {r : Refusal}

/-- ADC and SBC are refused with D set under Refuse, and name PC and the opcode byte (R222, R403). -/
theorem addition_eq_refused {law : Byte → Byte → Bool → Sum} (h : addition law op o s = .refused r) :
    r = .decimalArithmetic s.pc op ∧ s.flag .d = true ∧ s.cfg.decimalMode = .refuse := by
  unfold addition at h
  split at h
  · split at h
    · next hd => cases h; exact ⟨rfl, hd⟩
    · cases h
  · cases h

theorem reading_ne_refused (f : Byte → State → State) : reading op o f s ≠ .refused r := by
  unfold reading
  split <;> exact nofun

theorem storing_ne_refused (value : State → Byte) : storing op o value s ≠ .refused r := by
  unfold storing
  split <;> exact nofun

theorem modifying_ne_refused (g : Byte → Bool → Byte) (f : Byte → Byte → State → State) :
    modifying op o g f s ≠ .refused r := by
  unfold modifying
  split <;> exact nofun

theorem stepMemory_ne_refused (f : Byte → Byte) : stepMemory f op o s ≠ .refused r :=
  modifying_ne_refused _ _

theorem shiftMemory_ne_refused (f : Shift) : shiftMemory f op o s ≠ .refused r :=
  modifying_ne_refused _ _

theorem jumping_ne_refused : jumping op o s ≠ .refused r := by
  unfold jumping
  split <;> exact nofun

theorem branching_ne_refused (f : Flag) (taken : Bool) (b : Byte) : branching f taken op b s ≠ .refused r := by
  unfold branching
  split
  · exact jumping_ne_refused
  · exact nofun

theorem execJsr_ne_refused (w : Word) : execJsr w s ≠ .refused r := by
  unfold execJsr
  split <;> exact nofun

/-- Only an addition is refused (R403, R407). -/
theorem Shape.run_eq_refused {sh : Shape} (h : sh.run op o s = .refused r) :
    (∃ law, sh = .addition law) ∧ r = .decimalArithmetic s.pc op ∧ s.flag .d = true ∧
      s.cfg.decimalMode = .refuse := by
  cases sh with
  | addition law => exact ⟨⟨law, rfl⟩, addition_eq_refused h⟩
  | load | comparison | logical | bitTesting => exact absurd h (reading_ne_refused _)
  | store r => exact absurd h (storing_ne_refused _)
  | stepMemory f => exact absurd h (stepMemory_ne_refused f)
  | shift f =>
    cases o with
    | accumulator => cases h
    | _ => exact absurd h (shiftMemory_ne_refused f)
  | jump => exact absurd h jumping_ne_refused
  | call =>
    cases o with
    | absolute w => exact absurd h (execJsr_ne_refused w)
    | _ => cases h
  | branch f taken =>
    cases o with
    | relative b => exact absurd h (branching_ne_refused f taken b)
    | _ => cases h
  | transfer | txs | stepRegister | ret | flagging | pha | php | pla | plp | nop | brk | rti => cases h

end refusals

/-- ADC and SBC have the shape of an addition, and nothing else has (R222). -/
theorem mnemonic_of_addition {m : Mnemonic} {law : Byte → Byte → Bool → Sum} (h : Shape.ofMnemonic m = .addition law) :
    m ∈ [Mnemonic.adc, .sbc] := by
  cases m with
  | adc | sbc => decide
  | _ => cases h

/-- An instruction that is refused is an ADC or SBC with D set under Refuse (R403, R407). -/
theorem exec_eq_refused {i : Instr} {s : State} {r : Refusal} (h : exec i s = .refused r) :
    (∃ law, Shape.ofMnemonic i.mnemonic = .addition law) ∧ r = .decimalArithmetic s.pc i.opcode ∧
      s.flag .d = true ∧ s.cfg.decimalMode = .refuse :=
  Shape.run_eq_refused (exec_eq_run i s ▸ h)

/-! ### The step that stops -/

/-- An invalid opcode byte is the decode fault of the fetch (R400). -/
theorem fetch_invalid {s : State} (h : isValid (s.memRead s.pc).1 = false) :
    fetch s = .error (.decodeFault s.pc (s.memRead s.pc).1) := by
  simp only [fetch, isValid_eq_false_iff.1 h]

/-- A step is refused by the instruction it has fetched (R141). -/
theorem step_eq_refused {s : State} {r : Refusal} (hs : s.status = .running) (h : step s = .refused r) :
    ∃ i t, fetch s.interleave = .ok (i, t) ∧ exec i t = .refused r := by
  rw [step_running hs] at h
  split at h
  · cases h
  · unfold cpuStep at h
    split at h
    · next i t hf =>
      refine ⟨i, t, hf, ?_⟩
      cases he : exec i t <;> rw [he] at h <;> cases h
      rfl
    · cases h

/-- A state that is another behind n interleaving points, but for the run status and the counter of free values, has its
registers, flags, cells and VIA registers. -/
theorem State.kept_of_eq_points {s t : State} {n d : Nat} {st : RunStatus}
    (h : t = { s.points n with draws := d, status := st }) :
    t.pc = s.pc ∧ t.p = s.p ∧ (∀ q : Reg, t.reg q = s.reg q) ∧ t.mem = s.mem ∧ t.enable = s.enable ∧
      t.autoscan = s.autoscan ∧ t.ddra = s.ddra ∧ t.lastProbe = s.lastProbe := by
  subst h
  exact ⟨s.points_pc n, s.points_p n, State.reg_congr (s.points_a n) (s.points_x n) (s.points_y n) (s.points_sp n),
    s.points_mem n, s.points_enable n, s.points_autoscan n, s.points_ddra n, s.points_lastProbe n⟩

/-! ### The construction check -/

/-- The byte the construction check names stands in two rows (R402). -/
theorem duplicate_of_duplicateOpcode {rows : List Row} {op : Byte} (h : duplicateOpcode rows = some op) :
    List.Duplicate op (rows.map Row.opcode) := by
  induction rows with
  | nil => cases h
  | cons r rest ih =>
    unfold duplicateOpcode at h
    split at h
    · next hany =>
      cases h
      have hmem : r.opcode ∈ rest.map Row.opcode := by simpa using hany
      exact hmem.duplicate_cons_self
    · exact (ih h).duplicate_cons r.opcode

/-- A table in which the construction check names no byte has none twice (R402). -/
theorem nodup_of_duplicateOpcode {rows : List Row} (h : duplicateOpcode rows = none) :
    (rows.map Row.opcode).Nodup := by
  induction rows with
  | nil => exact List.nodup_nil
  | cons r rest ih =>
    unfold duplicateOpcode at h
    split at h
    · cases h
    · next hany =>
      have hmem : r.opcode ∉ rest.map Row.opcode := by simpa using hany
      exact List.nodup_cons.2 ⟨hmem, ih h⟩

end Sys2Proof.Machine

namespace Sys2Proof.Proofs

open Sys2Proof.Machine Sys2Proof.Claims

/-- Settles O24: of the shapes only the addition is refused, and only ADC and SBC have it. -/
theorem onlyDecimalArithmeticIsRefused : Obligations.OnlyDecimalArithmeticIsRefused := by
  intro i s r h
  obtain ⟨⟨law, hlaw⟩, hr, hd, hmode⟩ := exec_eq_refused h
  exact ⟨hr, mnemonic_of_addition hlaw, hd, hmode⟩

/-- Settles O39: RTI is three pulls behind three interleaving points, the first of P and two of PC. -/
theorem rtiRestoresFlagsAndPc : Obligations.RtiRestoresFlagsAndPc := by
  intro s
  have hexec : exec .rti s = .next s.returnFromHandler := rfl
  have htouches := exec_touchesOnly (i := .rti) nofun hexec
  have hsp2 : s.sp + 1 + 1 = s.sp + 2 := BitVec.add_assoc s.sp 1 1
  have hsp3 : s.sp + 2 + 1 = s.sp + 3 := BitVec.add_assoc s.sp 2 1
  simp only [stackCell_eq_stackAddr]
  refine ⟨⟨rfl, rfl⟩, _, hexec, s.returnFromHandler_p, ?sp, ?pc,
    frame_of_surroundings_eq s.returnFromHandler_surroundings htouches, viaKept_of_via_eq s.returnFromHandler_via,
    fun c _ => State.rawRead_congr s.returnFromHandler_mem c⟩
  case sp => rw [State.returnFromHandler_sp, hsp2, hsp3]
  case pc => rw [State.returnFromHandler_pc, hsp2, hsp3, word_toNat]

/-- Settles O40: the poll is an entry that saves PC and P, or nothing. -/
theorem pollEntersOnUnmaskedNotification : Obligations.PollEntersOnUnmaskedNotification := by
  intro s
  refine ⟨fun h => ?masked, fun hwf hn hi => ?taken⟩
  case masked =>
    refine if_neg fun ⟨hn, hi⟩ => ?_
    rcases h with hnone | hset
    · exact hn hnone
    · exact Bool.false_ne_true (hi.symm.trans hset)
  case taken =>
    have hstatus : s.interruptStatus = (s.p &&& 0xEF#8) ||| 0x20#8 := rfl
    have htouches : TouchesOnly [.s] [.i] s (s.enterHandler s.pc s.interruptStatus) :=
      ⟨fun q hq => s.reg_enterHandler (List.mem_singleton.not.1 hq) _ _,
        fun g hg => (s.flag_enterHandler g _ _).trans (if_neg (List.mem_singleton.not.1 hg))⟩
    obtain ⟨hpchi, hpclo, hp, hcells⟩ := State.enterHandler_pushes s.pc s.interruptStatus hwf
    simp only [stackCell_eq_stackAddr, State.poll_unmasked hn hi]
    refine ⟨State.enterHandler_sp_eq_sub _ _ s, (s.flag_enterHandler .i _ _).trans (if_pos rfl), hpchi, hpclo,
      hp.trans hstatus, ?vector, State.enterHandler_vector_unhooked _ _ hwf,
      frame_of_surroundings_eq (State.enterHandler_surroundings _ _ s) htouches,
      viaKept_of_via_eq (State.enterHandler_via _ _ s), hcells⟩
    rw [State.enterHandler_vector _ _ hwf, State.busReadPair_toNat]
    rfl

/-- Settles O41: the return pulls back the frame the entry pushed, whose status byte has B clear and R set. -/
theorem rtiUndoesInterruptEntry : Obligations.RtiUndoesInterruptEntry := by
  intro s u hwf hn hi hrti
  rw [State.poll_unmasked hn hi] at hrti
  cases hrti
  obtain ⟨hpc, hp, hsp⟩ := State.returnFromHandler_enterHandler hwf s.pc s.interruptStatus
  have hflag (f : Flag) : (s.enterHandler s.pc s.interruptStatus).returnFromHandler.flag f =
      if f = .r then true else if f = .b then false else s.flag f := by
    rw [State.flag, hp, State.test_interruptStatus]
  exact ⟨hpc, hsp, by simp, by simp, by simp, hflag .b, hflag .r,
    fun f hb hr => by rw [hflag, if_neg hr, if_neg hb]⟩

/-- Settles O48: the fetch faults on the opcode byte, and the step records what that byte's access left. -/
theorem invalidOpcodeIsDecodeFault : Obligations.InvalidOpcodeIsDecodeFault := by
  intro s hs hr hinvalid fault
  have hfetch : fetch s.interleave = .error fault := by
    rw [← s.interleave_pc] at hinvalid
    rw [fetch_invalid hinvalid, s.interleave_pc]
  have hstep : step s = .fault fault := by
    rw [step_running hs, hr, if_neg Bool.false_ne_true, cpuStep, hfetch]
  have hread : stoppedAt s.interleave = (s.busRead s.interleave.pc).2 := stoppedAt_of_error hfetch
  have hsettle : settle s =
      { s.points 1 with draws := (s.busRead s.interleave.pc).2.draws, status := .faulted fault } := by
    rw [settle_fault hs hstep, hread, (s.busRead_accessed s.interleave.pc).eq_points]
  exact ⟨hstep, ⟨_, hsettle⟩, State.kept_of_eq_points hsettle⟩

/-- Settles O49: a refused instruction is an addition, whose operand byte has been read and nothing else done. -/
theorem refusedStepWritesNothing : Obligations.RefusedStepWritesNothing := by
  intro s r hs h
  obtain ⟨i, t, hfetch, hexec⟩ := step_eq_refused hs h
  obtain ⟨⟨law, hlaw⟩, hr, hd, hmode⟩ := exec_eq_refused hexec
  have hreadable : readable i.operand = true := by
    have ho := shape_accepts i
    rwa [hlaw] at ho
  obtain ⟨m, u, hm, hu⟩ := operandByte_readable i.opcode hreadable t
  have ht : Accessed i.length s t := fetch_accessed hfetch
  have hsettle : settle s =
      { s.points (i.length + operandReads i.operand) with draws := u.draws, status := .refused r } := by
    rw [settle_refused hs h, stoppedAt_of_ok hfetch hm, (ht.trans hu).eq_points]
  exact ⟨i, u.draws, mnemonic_of_addition hlaw, ht.flag_eq .d ▸ hd, ht.cfg_eq ▸ hmode, ht.pc_eq ▸ hr, hsettle,
    State.kept_of_eq_points hsettle⟩

/-- Settles O58: the check names a byte exactly when the table has one twice, by induction on the table. -/
theorem constructionFaultsOnDuplicateRow : Obligations.ConstructionFaultsOnDuplicateRow := by
  refine ⟨decoderTable_nodup_opcode, fun rows params m e agents => ?_⟩
  unfold construct
  cases h : duplicateOpcode rows with
  | none => exact ⟨fun _ => rfl, fun hdup => absurd (nodup_of_duplicateOpcode h) hdup⟩
  | some op =>
    have hdup := duplicate_of_duplicateOpcode h
    exact ⟨fun hnodup => absurd hnodup hdup.not_nodup, fun _ => ⟨op, List.duplicate_iff_two_le_count.1 hdup, rfl⟩⟩

end Sys2Proof.Proofs
end

section
/-! PROOFS. Launches, images and snapshots (70_reset_and_hazards.md): what a copy of bytes into memory leaves in each
cell, and the invariant of every launch. -/

namespace Sys2Proof.Machine

/-! ### Bytes copied into memory -/

section copy
variable {m : Memory} {bytes : List Byte}

theorem Memory.wf_loadBytes (hm : m.wf = true) (a : Word) : (loadBytes bytes a m).wf = true := by
  induction bytes generalizing a m with
  | nil => exact hm
  | cons b rest ih => exact ih (Memory.wf_write hm a.isLt) (a + 1)

/-- The cell k above the next address is the cell k + 1 above this one, mod 2^16. -/
theorem toNat_add_one_add_mod (a : Word) (k : Nat) : ((a + 1).toNat + k) % 65536 = (a.toNat + (k + 1)) % 65536 := by
  have hnext : (a + 1).toNat = (a.toNat + 1) % 65536 := BitVec.toNat_add a 1
  omega

/-- A cell the copy does not reach is as before (R487). -/
theorem Memory.read_loadBytes_other (hm : m.wf = true) {a : Word} {c : Nat}
    (hc : ∀ k < bytes.length, c ≠ (a.toNat + k) % 65536) : Memory.read (loadBytes bytes a m) c = Memory.read m c := by
  induction bytes generalizing a m with
  | nil => rfl
  | cons b rest ih =>
    have hfirst : c ≠ a.toNat := by simpa [Nat.mod_eq_of_lt a.isLt] using hc 0 (Nat.succ_pos _)
    have hlater : ∀ k < rest.length, c ≠ ((a + 1).toNat + k) % 65536 := fun k hk => by
      rw [toNat_add_one_add_mod]
      exact hc (k + 1) (Nat.succ_lt_succ hk)
    exact (ih (Memory.wf_write hm a.isLt) hlater).trans (Memory.read_write_other hm hfirst)

/-- A cell the copy reaches holds its byte: no later byte comes back to it within 65,536 (R487). -/
theorem Memory.read_loadBytes (hm : m.wf = true) (hlen : bytes.length ≤ 65536) (a : Word) (k : Nat)
    (hk : k < bytes.length) : Memory.read (loadBytes bytes a m) ((a.toNat + k) % 65536) = bytes[k] := by
  induction bytes generalizing a m k with
  | nil => cases hk
  | cons b rest ih =>
    have hwf := Memory.wf_write (v := b) hm a.isLt
    rw [List.length_cons] at hlen hk
    cases k with
    | zero =>
      have hbehind : ∀ j < rest.length, a.toNat ≠ ((a + 1).toNat + j) % 65536 := fun j hj => by
        have ha := a.isLt
        rw [toNat_add_one_add_mod]
        omega
      rw [Nat.add_zero, Nat.mod_eq_of_lt a.isLt]
      exact (Memory.read_loadBytes_other hwf hbehind).trans (Memory.read_write_same hm)
    | succ k =>
      rw [← toNat_add_one_add_mod]
      exact ih hwf (Nat.le_of_succ_le hlen) (a + 1) k (Nat.lt_of_succ_lt_succ hk)

end copy

/-! ### The cells of a snapshot -/

/-- The cells as a snapshot lists them, in address order (R488). -/
def Memory.cells (m : Memory) : List Byte := (List.range 65536).map fun a => Memory.read m a

@[simp] theorem Memory.length_cells (m : Memory) : m.cells.length = 65536 := by simp [Memory.cells]

theorem saveSnapshot_eq (s : State) :
    saveSnapshot s = lo8 s.pc :: hi8 s.pc :: s.sp :: s.a :: s.x :: s.y :: s.p :: s.mem.cells := by
  simp only [saveSnapshot, Memory.cells, List.cons_append, List.nil_append]

/-- Canonical memories with the same 65,536 cells are equal: neither lists an address above them. -/
theorem Memory.eq_of_read_lt {m n : Memory} (hm : m.wf = true) (hn : n.wf = true)
    (h : ∀ a < 65536, Memory.read m a = Memory.read n a) : m = n := by
  refine Memory.eq_of_read hm hn fun a => ?_
  by_cases ha : a < 65536
  case pos => exact h a ha
  case neg => rw [Memory.read_above hm (not_lt.1 ha), Memory.read_above hn (not_lt.1 ha)]

/-- Copying a canonical memory's cells into an empty one makes it again. -/
theorem Memory.loadBytes_cells {m : Memory} (hm : m.wf = true) : loadBytes m.cells 0 [] = m := by
  refine Memory.eq_of_read_lt (Memory.wf_loadBytes Memory.wf_nil 0) hm fun a ha => ?_
  have hread := Memory.read_loadBytes Memory.wf_nil m.length_cells.le 0 a (by rwa [m.length_cells])
  simpa [Nat.mod_eq_of_lt ha, Memory.cells] using hread

/-- What a launch makes of a snapshot of seven register bytes and 65,536 cells (R483, R488). -/
theorem loadSnapshot_cons {params : LaunchParams} {agents : Schedule} {lo hi sp a x y p : Byte} {cells : List Byte}
    (h : cells.length = 65536) : loadSnapshot params agents (lo :: hi :: sp :: a :: x :: y :: p :: cells) =
      some { assembled params (loadBytes cells 0 []) agents with
        pc := word hi lo, sp := sp, a := a, x := x, y := y, p := p } :=
  if_pos h

/-! ### Launches -/

/-- A launch has the invariant wherever it enters: its cells are the given ones, and nothing is pending or notified. -/
theorem launch_inv {params : LaunchParams} {m : Memory} (hm : m.wf = true) (e : Option Word) (agents : Schedule) :
    (launch params m e agents).Inv := by
  cases e <;> exact ⟨hm, rfl, BitVec.zero_and⟩

theorem launch_viaHooked (params : LaunchParams) (m : Memory) (e : Option Word) (agents : Schedule) :
    (launch params m e agents).viaHooked := by
  cases e <;> exact ⟨rfl, rfl⟩

/-- Reset is the default launch: the reset vector's cells are unlisted, and so is the word PC takes from them. -/
theorem reset_eq_launch : State.reset = launch LaunchParams.default [] none .quiet := by decide

end Sys2Proof.Machine

namespace Sys2Proof.Proofs

open Sys2Proof.Machine

/-- Settles O59: the loader copies the code from the origin up, at most once into each cell. -/
theorem relocatableImageLoadsAtOrigin : Obligations.RelocatableImageLoadsAtOrigin := by
  intro lo hi code m hm hlen
  have horigin : word hi lo = BitVec.ofNat 16 (256 * hi.toNat + lo.toNat) := by
    rw [← word_toNat, BitVec.ofNat_toNat, BitVec.setWidth_eq]
  refine ⟨⟨loadBytes code (word hi lo) m, some (word hi lo)⟩, rfl, Memory.wf_loadBytes hm _, congrArg some horigin, ?_⟩
  rw [← word_toNat]
  exact ⟨Memory.read_loadBytes hm hlen _, fun _ _ hc => Memory.read_loadBytes_other hm hc⟩

/-- Settles O60: the seven register bytes are read back as written, and the listed cells make the memory again. -/
theorem snapshotRoundTrip : Obligations.SnapshotRoundTrip := by
  intro s params agents hm
  rw [saveSnapshot_eq]
  refine ⟨by simp, ?_⟩
  rw [loadSnapshot_cons s.mem.length_cells, Memory.loadBytes_cells hm, word_hi8_lo8]
  rfl

/-- Settles O57: reset is one of the launches, and R8's values stand in the default parameters. -/
theorem resetHasTheInvariant : Obligations.ResetHasTheInvariant := by
  refine ⟨fun params m e agents hm => ⟨launch_inv hm e agents, launch_viaHooked params m e agents⟩, ?inv,
    reset_eq_launch, ⟨rfl, rfl⟩, by decide, rfl, rfl, rfl, rfl, rfl, rfl, rfl⟩
  case inv =>
    rw [reset_eq_launch]
    exact launch_inv Memory.wf_nil none .quiet

end Sys2Proof.Proofs
end
